-- ==== Sys2Proof/Word.lean ====
section
/-! DEFINITION. The bit-vector types of the block (spec/00_scope.md R10): bit 0 is the least significant, all unsigned. -/

namespace Sys2Proof

/-- A 32-bit register, command word or bus word (R50, R80). -/
abbrev Word := BitVec 32

/-- One bit of the bitstream (R11, R24). -/
abbrev Bit := BitVec 1

/-- One 8-bit symbol (R12, R28). -/
abbrev Symbol := BitVec 8

/-- One transition interval, `IW` = 28 bits wide (R8, R22). -/
abbrev Interval := BitVec 28

/-- A 20-bit byte address of the register space (R50). -/
abbrev Addr := BitVec 20

end Sys2Proof
end

