-- ==== Sys2Proof/Syntax.lean ====
section
/-! DEFINITION. The commands of the block (spec/30_encoding.md R85): one constructor per row of spec/opcode_table.json. -/

namespace Sys2Proof

/-- A command.  `ldb`'s operand fields are as wide as R83 makes them; which of their values are legal is
`Instr.WellFormed`. -/
inductive Instr where
  /-- NOP (R100). -/
  | nop
  /-- CLR (R102). -/
  | clr
  /-- LDI ival (R110). -/
  | ldi (ival : Interval)
  /-- LDB nb, bdata (R113). -/
  | ldb (nb : BitVec 5) (bdata : BitVec 16)
  /-- DEC (R121). -/
  | dec
  /-- FND (R141). -/
  | fnd
  /-- EXT (R145). -/
  | ext
  /-- CHK (R160). -/
  | chk
  /-- VAL (R166). -/
  | val
  deriving DecidableEq, Repr

end Sys2Proof
end

