-- ==== Sys2Proof/WellFormed.lean ====
section
/-! DEFINITION. Which commands are legal (spec/30_encoding.md R82, R83): only LDB's operands have illegal values. -/

namespace Sys2Proof

/-- R83: `1 ≤ NB ≤ 16` and `BDATA[15:NB] = 0`.  Every other command is legal with every operand (R81, R82). -/
def Instr.wellFormed : Instr → Bool
  | .nop => true
  | .clr => true
  | .ldi _ => true
  | .ldb nb bdata => decide (1 ≤ nb.toNat) && decide (nb.toNat ≤ 16) && bdata >>> nb.toNat == 0#16
  | .dec => true
  | .fnd => true
  | .ext => true
  | .chk => true
  | .val => true

/-- The command is one a legal word encodes. -/
abbrev Instr.WellFormed (i : Instr) : Prop := i.wellFormed = true

end Sys2Proof
end

