-- ==== Sys2Proof/Decode.lean ====
section
/-! DEFINITION. The decoder of spec/30_encoding.md R86, total on 32-bit words and rejecting by name, and the encoder
of R81 to R83 and R89. -/

namespace Sys2Proof

/-- Why a word is illegal (R87). -/
inductive Illegal where
  /-- OP is 0x9..0xF. -/
  | reservedOpcode
  /-- OP is a format-N command's and some bit of 27:0 is set (R81). -/
  | operandNotZero
  /-- OP is LDB's and some bit of 27:21 is set (R83). -/
  | ldbReservedBits
  /-- OP is LDB's and NB is outside 1..16 (R83). -/
  | ldbCount
  /-- OP is LDB's and BDATA has a bit set at or above NB (R83). -/
  | ldbData
  deriving DecidableEq, Repr

/-- What the decoder answers: a command, or ILLEGAL with the reason. -/
inductive Decoded where
  | instr (i : Instr)
  | illegal (why : Illegal)
  deriving DecidableEq, Repr

/-- `OP = w[31:28]` (R80). -/
def opField (w : Word) : BitVec 4 := w.extractLsb' 28 4

/-- `w[27:0]`: the operand, and IVAL of format I (R80, R82). -/
def operandField (w : Word) : BitVec 28 := w.extractLsb' 0 28

/-- `w[27:21]` of format B (R83). -/
def ldbZeroField (w : Word) : BitVec 7 := w.extractLsb' 21 7

/-- `NB = w[20:16]` (R83). -/
def nbField (w : Word) : BitVec 5 := w.extractLsb' 16 5

/-- `BDATA = w[15:0]` (R83). -/
def bdataField (w : Word) : BitVec 16 := w.extractLsb' 0 16

/-- Format N: the operand must be zero (R81). -/
def decodeN (i : Instr) (w : Word) : Decoded :=
  if operandField w = 0#28 then .instr i else .illegal .operandNotZero

/-- Format B with LDB's conditions (R83). -/
def decodeB (w : Word) : Decoded :=
  if ldbZeroField w ≠ 0#7 then .illegal .ldbReservedBits
  else if ¬(1 ≤ (nbField w).toNat ∧ (nbField w).toNat ≤ 16) then .illegal .ldbCount
  else if bdataField w >>> (nbField w).toNat ≠ 0#16 then .illegal .ldbData
  else .instr (.ldb (nbField w) (bdataField w))

/-- The decode function of R86. -/
def decode (w : Word) : Decoded :=
  if opField w = 0x0#4 then decodeN .nop w
  else if opField w = 0x1#4 then decodeN .clr w
  else if opField w = 0x2#4 then .instr (.ldi (operandField w))
  else if opField w = 0x3#4 then decodeB w
  else if opField w = 0x4#4 then decodeN .dec w
  else if opField w = 0x5#4 then decodeN .fnd w
  else if opField w = 0x6#4 then decodeN .ext w
  else if opField w = 0x7#4 then decodeN .chk w
  else if opField w = 0x8#4 then decodeN .val w
  else .illegal .reservedOpcode

/-- The word of a command: OP in bits 31:28, then the operand by the command's format (R81 to R83, R85, R89). -/
def encode : Instr → Word
  | .nop => 0x0#4 ++ 0#28
  | .clr => 0x1#4 ++ 0#28
  | .ldi ival => 0x2#4 ++ ival
  | .ldb nb bdata => 0x3#4 ++ 0#7 ++ nb ++ bdata
  | .dec => 0x4#4 ++ 0#28
  | .fnd => 0x5#4 ++ 0#28
  | .ext => 0x6#4 ++ 0#28
  | .chk => 0x7#4 ++ 0#28
  | .val => 0x8#4 ++ 0#28

/-- A command as the opcode table numbers its bits: the low `nbits` bits of `w`, every bit above them 0.
One command is one 32-bit word (R80), so the word of the table is the word written to CMD. -/
def tableWord (nbits w : Nat) : Word := BitVec.ofNat 32 (w % 2 ^ nbits)

/-- The command the decoder reads from a table word; none where the word is illegal. -/
def decodeTableWord (nbits w : Nat) : Option Instr :=
  match decode (tableWord nbits w) with
  | .instr i => some i
  | .illegal _ => none

end Sys2Proof
end

