-- ==== Sys2Proof/Config.lean ====
section
/-! DEFINITION. What an implementation of the block fixes (spec/00_scope.md R8) and the values the spec leaves free. -/

namespace Sys2Proof.Config

/-- The implementation parameters of R8 that state depends on.
They are fixed for one machine: State carries them and no step changes them, so a statement about every state
holds for every legal choice (log entry 2). -/
structure Params where
  /-- `N_INT`: depth of the interval buffer IBUF, in entries. -/
  nInt : Nat
  /-- `N_BIT`: depth of the bitstream buffer BBUF, in bits. -/
  nBit : Nat
  deriving DecidableEq, Repr

/-- The constraints R8 puts on the parameters. -/
def Params.legal (p : Params) : Bool :=
  decide (10 ≤ p.nInt ∧ p.nInt ≤ 65536 ∧ p.nInt ≤ p.nBit ∧ p.nBit ≤ 65536 ∧ 200 ≤ p.nBit)

/-- The defaults of R8. -/
def Params.default : Params := { nInt := 65536, nBit := 65536 }

/-- FREE VALUE (R65, R201; log entry 4): the word that the `k`-th unconstrained host read returns.
It has no body, so no proof can use a value of it. -/
opaque freeWord : Nat → Word

/-- OPEN parameter `BDV_BASE` (R69; log entry 5): where the register space sits in the system's address map.
The block sees offsets only. -/
opaque bdvBase : Nat

end Sys2Proof.Config
end

