-- ==== Sys2Proof/Machine/Buffer.lean ====
section
/-! DEFINITION. The block's internal arrays IBUF and BBUF (spec/10_state.md R22, R24): plain data in one canonical form. -/

namespace Sys2Proof.Machine

/-- An array of `w`-bit entries, as the list of its entries that are not 0: (index, entry) pairs, indexes rising.
An index that is not listed holds 0: the spec leaves the entries unspecified after reset and lets a model hold them
as 0 (93_implementation_defined.md U1; log entry 6). -/
abbrev Buffer (w : Nat) := List (Nat × BitVec w)

/-- The entry at index `k`. -/
def Buffer.read {w : Nat} : Buffer w → Nat → BitVec w
  | [], _ => 0#w
  | (j, v) :: rest, k => if j = k then v else Buffer.read rest k

/-- The array without what it listed at `k`, so that `k` holds 0. -/
def Buffer.clearAt {w : Nat} (b : Buffer w) (k : Nat) : Buffer w := b.filter fun c => c.1 != k

/-- Lists `v` at `k`, in the place that keeps indexes rising. -/
def Buffer.place {w : Nat} : Buffer w → Nat → BitVec w → Buffer w
  | [], k, v => [(k, v)]
  | (j, u) :: rest, k, v => if k < j then (k, v) :: (j, u) :: rest else (j, u) :: Buffer.place rest k v

/-- `buffer[k] <- v`. -/
def Buffer.write {w : Nat} (b : Buffer w) (k : Nat) (v : BitVec w) : Buffer w :=
  if v = 0#w then b.clearAt k else (b.clearAt k).place k v

/-- `buffer[k + j] <- vs[j]` for every element of `vs`, in order. -/
def Buffer.writeList {w : Nat} : Buffer w → Nat → List (BitVec w) → Buffer w
  | b, _, [] => b
  | b, k, v :: vs => Buffer.writeList (b.write k v) (k + 1) vs

/-- The entries at `p .. p+n-1` (R11). -/
def Buffer.slice {w : Nat} (b : Buffer w) (p n : Nat) : List (BitVec w) := (List.range n).map fun j => b.read (p + j)

/-- The canonical form of an array of `depth` entries: indexes rise strictly and stay below `depth`, no listed entry
is 0. -/
def Buffer.wf {w : Nat} (depth : Nat) : Buffer w → Bool
  | [] => true
  | (j, v) :: rest => decide (j < depth) && v != 0#w && rest.all (fun c => decide (j < c.1)) && Buffer.wf depth rest

end Sys2Proof.Machine
end

