-- ==== Sys2Proof/Machine/State.lean ====
section
/-! DEFINITION. The state of the block as plain data (spec/10_state.md R22 to R39), its reset value (R39, R200), and the
outcomes a step can have beside a next state. -/

namespace Sys2Proof.Machine

/-- The fault codes of STATUS.FCODE (R180).  Codes 11..15 are reserved and no command produces them (U9). -/
inductive FCode where
  | ok
  | illegal
  | overflow
  | shortInput
  | decode
  | noSentinel
  | shortWindow
  | mirror0
  | mirror
  | checksum
  | sequence
  deriving DecidableEq, Repr

/-- The fields of STATUS (R32); its bits 31:12 are reserved, read 0 and are never written. -/
structure Status where
  /-- Bit 0: a command is accepted and not completed. -/
  busy : Bool
  /-- Bit 1: a command has completed; write 1 to clear. -/
  done : Bool
  /-- Bit 2, sticky: some command completed with a fault. -/
  err : Bool
  /-- Bit 3, sticky: a command was written while busy. -/
  ovr : Bool
  /-- Bit 4, sticky: an unsupported host access was made. -/
  berr : Bool
  /-- Bit 5: OFFSET names a sentinel with a whole window after it. -/
  loc : Bool
  /-- Bit 6: SYM holds the window at OFFSET. -/
  symv : Bool
  /-- Bit 7: REC holds the decoded record. -/
  rvalid : Bool
  /-- Bits 11:8: the outcome of the last completed command. -/
  fcode : FCode
  deriving DecidableEq, Repr

/-- The 25 symbol registers (R28), and the 25 record registers (R29). -/
abbrev Symbols := Vector Symbol 25

/-- One completed host access: `MemRead(addr, n)` or `MemWrite(addr, n, v)` (R60, R61). -/
inductive Access where
  | read (addr : Addr) (n : Nat)
  | write (addr : Addr) (n : Nat) (v : Word)
  deriving DecidableEq, Repr

/-- One step of one of the three agents of R9. -/
inductive Turn where
  /-- The engine may complete the pending command (R181). -/
  | engine
  /-- The host makes one access (R59). -/
  | host (a : Access)
  /-- `rst` is sampled high (R200), together with an access presented at that edge, if there is one (R201). -/
  | reset (a : Option Access)
  deriving DecidableEq, Repr

/-- The machine. -/
structure State where
  /-- N_INT and N_BIT (R8), read through NINT and NBIT (R35): constants of the machine. -/
  params : Config.Params
  /-- IBUF (R22). -/
  ibuf : Buffer 28
  /-- ICNT (R23). -/
  icnt : Nat
  /-- BBUF (R24). -/
  bbuf : Buffer 1
  /-- BCNT (R25). -/
  bcnt : Nat
  /-- BASE8 (R26). -/
  base8 : Word
  /-- OFFSET (R27). -/
  offset : Nat
  /-- SYM (R28). -/
  sym : Symbols
  /-- REC (R29). -/
  record : Symbols
  /-- FIDX (R30). -/
  fidx : Nat
  /-- XSUM (R31). -/
  xsum : Symbol
  /-- STATUS (R32). -/
  status : Status
  /-- CTRL.IE (R33); the other bits of CTRL are reserved and read 0. -/
  ie : Bool
  /-- PEND (R36). -/
  pend : Word
  /-- The port's `rdata` (R76): what the last host read returned. -/
  rdata : Word
  /-- MODEL'S OWN (log entry 1): the turns the agents take next, in order.
  Empty: the engine moves when a command is pending (R210), else nothing does (R197). -/
  schedule : List Turn
  /-- MODEL'S OWN (log entry 4): how many free values host reads have drawn (R65). -/
  draws : Nat
  deriving DecidableEq, Repr

/-- Why the machine stops with a fault.  Nothing does: every fault of the block is reported in STATUS and the machine goes
on (R185), an illegal word included (R187).  No constructor, so no step can answer one; safe. -/
inductive Fault where
  deriving DecidableEq, Repr

/-- Why an instruction has no meaning. -/
inductive Refusal where
  /-- Raised by exec's arm of a command whose meaning is not written, under the command's mnemonic; safe.  Every command has
  its meaning, so no arm raises it. -/
  | notModelled (mnemonic : String)
  deriving DecidableEq, Repr

/-- What a step of the block answers. -/
abbrev Outcome := Host.Outcome State Fault Refusal

/-- STATUS after reset: 0x00000000 (R39). -/
def Status.reset : Status :=
  { busy := false, done := false, err := false, ovr := false, berr := false, loc := false, symv := false, rvalid := false,
    fcode := .ok }

/-- The reset values of R39 for a block with parameters `p`.  What R39 leaves unspecified (the contents of IBUF and BBUF,
PEND) and what the spec gives no reset value (the port's rdata) is 0: log entries 6, 7 and 8. -/
def State.resetOf (p : Config.Params) : State :=
  { params := p, ibuf := [], icnt := 0, bbuf := [], bcnt := 0, base8 := 0#32, offset := 0,
    sym := Vector.replicate 25 0#8, record := Vector.replicate 25 0#8, fidx := 0, xsum := 0#8,
    status := .reset, ie := false, pend := 0#32, rdata := 0#32, schedule := [], draws := 0 }

/-- The machine right after reset, with the default parameters of R8; no agent's turn is fixed yet. -/
def State.reset : State := .resetOf .default

end Sys2Proof.Machine
end

