-- ==== Sys2Proof/Machine/Flags.lean ====
section
/-! DEFINITION. STATUS: its code numbers, its word as a host reads it (spec/10_state.md R32, spec/60_exceptions.md R180), and
every way a rule changes its flags. -/

namespace Sys2Proof.Machine

/-- The number of a fault code (R180). -/
def FCode.code : FCode → BitVec 4
  | .ok => 0#4
  | .illegal => 1#4
  | .overflow => 2#4
  | .shortInput => 3#4
  | .decode => 4#4
  | .noSentinel => 5#4
  | .shortWindow => 6#4
  | .mirror0 => 7#4
  | .mirror => 8#4
  | .checksum => 9#4
  | .sequence => 10#4

/-- STATUS as one word (R32): reserved bits 31:12 read 0. -/
def Status.word (t : Status) : Word :=
  0#20 ++ t.fcode.code ++ BitVec.ofBool t.rvalid ++ BitVec.ofBool t.symv ++ BitVec.ofBool t.loc ++ BitVec.ofBool t.berr ++
    BitVec.ofBool t.ovr ++ BitVec.ofBool t.err ++ BitVec.ofBool t.done ++ BitVec.ofBool t.busy

/-- The bits of STATUS that read any value while BUSY = 1: ERR, LOC, SYMV, RVALID and FCODE (R65). -/
def Status.freeMask : Word := 0x00000FE4#32

/-- STATUS as a host reads it while BUSY = 1, with `free` in the bits the spec leaves open (R65). -/
def Status.busyWord (t : Status) (free : Word) : Word := (t.word &&& ~~~Status.freeMask) ||| (free &&& Status.freeMask)

/-- CTRL as one word (R33, R55). -/
def ctrlWord (ie : Bool) : Word := 0#31 ++ BitVec.ofBool ie

/-- `irq = STATUS.DONE AND CTRL.IE`, a level (R34, R186). -/
def State.irq (s : State) : Bool := s.status.done && s.ie

/-- `STATUS.LOC <- 0; STATUS.SYMV <- 0; STATUS.RVALID <- 0`: BBUF, OFFSET or SYM is about to change (R32). -/
def State.clearLocated (s : State) : State :=
  { s with status := { s.status with loc := false, symv := false, rvalid := false } }

/-- `STATUS.LOC <- 1` (R141). -/
def State.setLoc (s : State) : State := { s with status := { s.status with loc := true } }

/-- `STATUS.SYMV <- 1; STATUS.RVALID <- 0` (R145). -/
def State.setSymv (s : State) : State := { s with status := { s.status with symv := true, rvalid := false } }

/-- `STATUS.RVALID <- v` (R160). -/
def State.setRvalid (s : State) (v : Bool) : State := { s with status := { s.status with rvalid := v } }

/-- `STATUS.ERR <- 0; STATUS.OVR <- 0; STATUS.BERR <- 0` (R102). -/
def State.clearSticky (s : State) : State :=
  { s with status := { s.status with err := false, ovr := false, berr := false } }

/-- `STATUS.OVR <- 1` (R62). -/
def State.setOvr (s : State) : State := { s with status := { s.status with ovr := true } }

/-- `STATUS.BERR <- 1` (R63). -/
def State.setBerr (s : State) : State := { s with status := { s.status with berr := true } }

/-- `STATUS.DONE <- 0` (R54). -/
def State.clearDone (s : State) : State := { s with status := { s.status with done := false } }

end Sys2Proof.Machine
end

