-- ==== Sys2Proof/Machine/Profile.lean ====
section
/-! DEFINITION. The payload profile (spec/00_scope.md R3, R7): the fixed constants, named so that another profile is a
change of constants only. -/

namespace Sys2Proof.Machine.Profile

/-- `WARMUP_BITS`: the `0` bits emitted for the warm-up window, and the fewest intervals DEC decodes (R122). -/
abbrev warmupBits : Nat := 10

/-- `BASE_FIRST`: the first interval of the seed baseline. -/
abbrev baseFirst : Nat := 1

/-- `BASE_LAST`: the last interval of the seed baseline. -/
abbrev baseLast : Nat := 8

/-- `LOOP_START`: the first interval the loop classifies. -/
abbrev loopStart : Nat := 10

/-- `TAIL_SKIP`: the loop stops this many intervals short of the end. -/
abbrev tailSkip : Nat := 2

/-- Both sides of a comparison with BASE8 = 8 × baseline in quarters are scaled by 32 = 8 × 4 (R120). -/
abbrev scale : Nat := 32

/-- `ONE_MAX` = 3/4, in quarters. -/
abbrev oneMax : Nat := 3

/-- `ONE_NEXT_MIN` = 1/4, in quarters. -/
abbrev oneNextMin : Nat := 1

/-- The lower end of `ZERO_BAND`, 3/4, in quarters. -/
abbrev zeroMin : Nat := 3

/-- The upper end of `ZERO_BAND`, 5/4, in quarters. -/
abbrev zeroMax : Nat := 5

/-- `SENTINEL`: `11111110`, first bit first (R140). -/
abbrev sentinel : List Bit := [1#1, 1#1, 1#1, 1#1, 1#1, 1#1, 1#1, 0#1]

/-- `WINDOW_BITS`: the bits needed from the sentinel's offset. -/
abbrev windowBits : Nat := 200

/-- `MIRROR_RANGE`: the `i` of the pairs (i, 24-i). -/
abbrev mirrorRange : List Nat := [1, 2, 3, 4, 5, 6, 7, 8, 9, 10, 11, 12]

/-- `XSUM_RANGE`: the symbols folded into the checksum. -/
abbrev xsumRange : List Nat := [1, 2, 3, 4, 5, 6, 7, 8, 9, 10]

/-- `XSUM_SEED`: where the XOR accumulator starts. -/
abbrev xsumSeed : Symbol := 0xFF#8

/-- `XSUM_SYM`: the symbol the checksum must equal. -/
abbrev xsumSym : Nat := 13

end Sys2Proof.Machine.Profile
end

