-- ==== Sys2Proof/Machine/Operands.lean ====
section
/-! DEFINITION. Values made of bits and symbols: the spec's sym8, rev8 and inv8 (spec/00_scope.md R12), the bits LDB appends
(spec/41_load.md R113), and the packing of the host's windows (spec/20_memory.md R56, R58). -/

namespace Sys2Proof.Machine

/-- The bits `f 0`, `f 1`, …, `f (n-1)` read as a binary numeral, the first most significant. -/
def msbFirst (f : Nat → Bit) : (n : Nat) → BitVec n
  | 0 => 0#0
  | n + 1 => msbFirst f n ++ f n

/-- `sym8(b, p)` (R12): bit 7 is `b[p]`, bit 0 is `b[p+7]`. -/
def sym8 (b : Buffer 1) (p : Nat) : Symbol := msbFirst (fun k => b.read (p + k)) 8

/-- `rev8(x)` (R12): bit `k` is `x[7-k]`. -/
def rev8 (x : Symbol) : Symbol := msbFirst (fun k => x.extractLsb' k 1) 8

/-- `inv8(x) = x XOR 0xFF` (R12). -/
def inv8 (x : Symbol) : Symbol := x ^^^ 0xFF#8

/-- `SYM[i]` or `REC[i]`; 0 where there is no such symbol, as the packing of R58 wants. -/
def Symbols.at (v : Symbols) (i : Nat) : Symbol := if h : i < 25 then v[i] else 0#8

/-- The bits LDB appends, first to last: BDATA[NB-1], …, BDATA[0] (R83, R113). -/
def ldbBits (nb : BitVec 5) (bdata : BitVec 16) : List Bit :=
  (List.range nb.toNat).map fun j => bdata.extractLsb' (nb.toNat - 1 - j) 1

/-- The word of SYMWk or RECWk: `W[8j+7:8j]` is symbol `4k+j` (R58). -/
def packSymbols (v : Symbols) (k : Nat) : Word := v.at (4 * k + 3) ++ v.at (4 * k + 2) ++ v.at (4 * k + 1) ++ v.at (4 * k)

/-- BBUF[k] as the host sees it: 0 at or beyond BCNT (R56). -/
def State.visibleBit (s : State) (k : Nat) : Bit := if k < s.bcnt then s.bbuf.read k else 0#1

/-- The word of BWIN[k]: `W[31-j]` is bitstream bit `32k+j` (R56). -/
def State.bwinWord (s : State) (k : Nat) : Word := msbFirst (fun j => s.visibleBit (32 * k + j)) 32

/-- The word of IWIN[k]: the interval, 0 at or beyond ICNT (R57). -/
def State.iwinWord (s : State) (k : Nat) : Word := if k < s.icnt then (s.ibuf.read k).setWidth 32 else 0#32

/-- A count or an index as a host reads it, `zext32` (R51). -/
def countWord (n : Nat) : Word := BitVec.ofNat 32 n

end Sys2Proof.Machine
end

