-- ==== Sys2Proof/Machine/Ops.lean ====
section
/-! DEFINITION. The operations every command and host access is made of: acceptance (spec/10_state.md R37), completion and the
raising of a fault (spec/60_exceptions.md R182, R183), a free value for a host read (spec/20_memory.md R65), reset. -/

namespace Sys2Proof.Machine

/-- Command acceptance (R37): `PEND <- w; STATUS.BUSY <- 1; STATUS.DONE <- 0`. -/
def State.accept (s : State) (w : Word) : State :=
  { s with pend := w, status := { s.status with busy := true, done := false } }

/-- `complete()` (R182): `STATUS.FCODE <- 0; STATUS.BUSY <- 0; STATUS.DONE <- 1`.
DESIGN CHOICE (log entry 7): PEND, any value while BUSY = 0 (R36, U2), keeps the completed word. -/
def State.complete (s : State) : State :=
  { s with status := { s.status with fcode := .ok, busy := false, done := true } }

/-- `raise Fault(code, fidx)` (R183), the block's only exception: no state is saved, no mode changes and control goes nowhere
(R185), so there is no return from it (R190).
DESIGN CHOICE (log entry 7): PEND, any value while BUSY = 0 (R36, U2), keeps the faulting word. -/
def State.raise (s : State) (code : FCode) (fidx : Nat) : State :=
  { s with fidx := fidx, status := { s.status with fcode := code, err := true, busy := false, done := true } }

/-- Where a command's pseudocode stands before its completion (R14). -/
inductive Run where
  /-- The lines so far ended without a `raise` and left this state. -/
  | goesOn (s : State)
  /-- A `raise Fault(code, fidx)` was reached; the writes before it stay (R183). -/
  | raised (s : State) (code : FCode) (fidx : Nat)

/-- The next part of a command's pseudocode; a `raise` ends it (R14). -/
def Run.andThen : Run → (State → Run) → Run
  | .goesOn s, next => next s
  | .raised s code fidx, _ => .raised s code fidx

/-- The end of a command: `complete()`, or the faulting completion of its `raise`. -/
def Run.finish : Run → State
  | .goesOn s => s.complete
  | .raised s code fidx => s.raise code fidx

/-- A host read that returns any value (R65): the next free value, drawn freshly. -/
def State.drawRead (s : State) : State := { s with rdata := Config.freeWord s.draws, draws := s.draws + 1 }

/-- Reset (R200): every state element takes its reset value; the pending command is abandoned (R201).  The schedule and the
count of draws are the model's own, and a port output is no state element. -/
def State.resetStep (s : State) : State :=
  { State.resetOf s.params with schedule := s.schedule, draws := s.draws, rdata := s.rdata }

/-- Reset with an access presented at the same edge (R201): the access has no effect, and a read returns any value. -/
def State.resetWith (s : State) : Option Access → State
  | none => s.resetStep
  | some (.read _ _) => s.resetStep.drawRead
  | some (.write _ _ _) => s.resetStep

end Sys2Proof.Machine
end

