-- ==== Sys2Proof/Machine/Control.lean ====
section
/-! DEFINITION. The control commands NOP and CLR (spec/40_control.md R100, R102). -/

namespace Sys2Proof.Machine

/-- NOP (R100): only the completion. -/
def execNop (s : State) : Outcome := .next s.complete

/-- What CLR writes before its completion (R102).  CTRL.IE and the contents of IBUF and BBUF stay. -/
def State.clearData (s : State) : State :=
  ({ s with icnt := 0, bcnt := 0, base8 := 0#32, offset := 0, fidx := 0, xsum := 0#8,
            sym := Vector.replicate 25 0#8, record := Vector.replicate 25 0#8 } : State).clearLocated.clearSticky

/-- CLR (R102). -/
def execClr (s : State) : Outcome := .next s.clearData.complete

end Sys2Proof.Machine
end

