-- ==== Sys2Proof/Machine/Demodulator.lean ====
section
/-! DEFINITION. The biphase demodulator, DEC (spec/42_demodulator.md R120 to R137).  Every product and sum is exact (R13). -/

namespace Sys2Proof.Machine

/-- What one step of the demodulator makes of an interval (R124). -/
inductive Cell where
  /-- A `1`, two intervals long. -/
  | one
  /-- A `0`, one interval long. -/
  | zero
  /-- In neither band. -/
  | unclassified
  deriving DecidableEq, Repr

/-- The classification of R124, by the exact comparisons of R120: `c` the current interval, `nx` the next, `b8` the baseline
times 8. -/
def classify (c nx b8 : Nat) : Cell :=
  if Profile.scale * c < Profile.oneMax * b8 ∧ Profile.scale * nx > Profile.oneNextMin * b8 then .one
  else if Profile.zeroMin * b8 ≤ Profile.scale * c ∧ Profile.scale * c ≤ Profile.zeroMax * b8 then .zero
  else .unclassified

/-- IBUF[k] as a count of ticks (R112). -/
def State.interval (s : State) (k : Nat) : Nat := (s.ibuf.read k).toNat

/-- How the loop of DEC ends. -/
inductive Demod where
  /-- It stopped short of the end: the bits it emitted and the baseline it leaves. -/
  | decoded (bits : List Bit) (b8 : Nat)
  /-- The interval at `i` is in neither band of the baseline `b8` (R128). -/
  | failed (i b8 : Nat)
  deriving DecidableEq, Repr

/-- A bit emitted before the rest of the loop's output. -/
def Demod.emit (b : Bit) : Demod → Demod
  | .decoded bits b8 => .decoded (b :: bits) b8
  | .failed i b8 => .failed i b8

/-- The loop of DEC (R121) over the intervals `x 0`, …, `x (n-1)`, from cursor `i` and baseline `b8`.
`fuel` bounds its steps; `n` of it is enough, because every step moves the cursor on (R130). -/
def demodLoop (x : Nat → Nat) (n : Nat) : (fuel : Nat) → (i b8 : Nat) → Demod
  | 0, _, b8 => .decoded [] b8
  | fuel + 1, i, b8 =>
    if i < n - Profile.tailSkip then
      match classify (x i) (x (i + 1)) b8 with
      | .one => (demodLoop x n fuel (i + 2) (8 * (x i + x (i + 1)))).emit 1#1
      | .zero => (demodLoop x n fuel (i + 1) (8 * x i)).emit 0#1
      | .unclassified => .failed i b8
    else .decoded [] b8

/-- The baseline seed times 8: the sum of IBUF[1..8] (R125). -/
def seedBase8 (x : Nat → Nat) : Nat :=
  ((List.range (Profile.baseLast + 1 - Profile.baseFirst)).map fun k => x (Profile.baseFirst + k)).sum

/-- The warm-up output (R126). -/
def warmup : List Bit := List.replicate Profile.warmupBits 0#1

/-- The loop of DEC from the seed. -/
def State.demod (s : State) : Demod := demodLoop s.interval s.icnt s.icnt Profile.loopStart (seedBase8 s.interval)

/-- `BASE8 <- b8`; the value fits (R26). -/
def State.setBase8 (s : State) (b8 : Nat) : State := { s with base8 := BitVec.ofNat 32 b8 }

/-- BBUF replaced by a whole output: BBUF[0..len-1], BCNT (R127). -/
def State.replaceBits (s : State) (out : List Bit) : State :=
  { s with bbuf := s.bbuf.writeList 0 out, bcnt := out.length }

/-- The bitstream given up: BCNT 0 (R122, R128). -/
def State.dropBits (s : State) : State := { s with bcnt := 0 }

/-- The pseudocode of DEC (R121). -/
def decBody (s : State) : Run :=
  if s.icnt < Profile.warmupBits then
    .raised (s.clearLocated.dropBits.setBase8 0) .shortInput s.icnt
  else
    match s.demod with
    | .failed i b8 => .raised (s.clearLocated.dropBits.setBase8 b8) .decode i
    | .decoded bits b8 => .goesOn ((s.clearLocated.replaceBits (warmup ++ bits)).setBase8 b8)

/-- DEC (R121): demodulates IBUF into BBUF. -/
def execDec (s : State) : Outcome := .next (decBody s).finish

end Sys2Proof.Machine
end

