-- ==== Sys2Proof/Machine/Load.lean ====
section
/-! DEFINITION. The loading commands LDI and LDB (spec/41_load.md R110, R113). -/

namespace Sys2Proof.Machine

/-- `IBUF[ICNT] <- v; ICNT <- ICNT + 1` (R110). -/
def State.appendInterval (s : State) (v : Interval) : State := { s with ibuf := s.ibuf.write s.icnt v, icnt := s.icnt + 1 }

/-- The bits written from BBUF[BCNT] on, and BCNT moved past them (R113). -/
def State.appendBits (s : State) (bits : List Bit) : State :=
  { s with bbuf := s.bbuf.writeList s.bcnt bits, bcnt := s.bcnt + bits.length }

/-- The pseudocode of LDI (R110). -/
def ldiBody (ival : Interval) (s : State) : Run :=
  if s.icnt = s.params.nInt then .raised s .overflow s.icnt
  else .goesOn (s.appendInterval ival)

/-- LDI (R110): appends one interval to IBUF. -/
def execLdi (ival : Interval) (s : State) : Outcome := .next (ldiBody ival s).finish

/-- The pseudocode of LDB (R113): all the bits are appended, or none. -/
def ldbBody (nb : BitVec 5) (bdata : BitVec 16) (s : State) : Run :=
  if s.bcnt + nb.toNat > s.params.nBit then .raised s .overflow s.bcnt
  else .goesOn (s.appendBits (ldbBits nb bdata)).clearLocated

/-- LDB (R113): appends NB bits to BBUF. -/
def execLdb (nb : BitVec 5) (bdata : BitVec 16) (s : State) : Outcome := .next (ldbBody nb bdata s).finish

end Sys2Proof.Machine
end

