-- ==== Sys2Proof/Machine/Locator.lean ====
section
/-! DEFINITION. The payload pattern matcher and field extractor, FND and EXT (spec/43_locator.md R140 to R148). -/

namespace Sys2Proof.Machine

/-- The sentinel stands at position `q` (R140). -/
def sentinelAt (b : Buffer 1) (q : Nat) : Bool := decide (b.slice q Profile.sentinel.length = Profile.sentinel)

/-- The first position of the sentinel in the first `bcnt` bits, if there is one (R141, R142): every `q` from 0 to
`bcnt - 8` is tried in order, and none when `bcnt < 8`. -/
def firstSentinel (b : Buffer 1) (bcnt : Nat) : Option Nat :=
  (List.range (bcnt + 1 - Profile.sentinel.length)).find? (sentinelAt b)

/-- `OFFSET <- p`. -/
def State.setOffset (s : State) (p : Nat) : State := { s with offset := p }

/-- The pseudocode of FND without its `complete()` (R141). -/
def fndBody (s : State) : Run :=
  match firstSentinel s.bbuf s.bcnt with
  | none => .raised (s.clearLocated.setOffset 0) .noSentinel s.bcnt
  | some p =>
    if s.bcnt - p < Profile.windowBits then .raised (s.clearLocated.setOffset p) .shortWindow (s.bcnt - p)
    else .goesOn (s.clearLocated.setOffset p).setLoc

/-- FND (R141): finds the sentinel and checks the window's length. -/
def execFnd (s : State) : Outcome := .next (fndBody s).finish

/-- The 25 symbols of the window at `p` (R145). -/
def sliceWindow (b : Buffer 1) (p : Nat) : Symbols := Vector.ofFn fun j => sym8 b (p + 8 * j.val)

/-- `SYM <- v`. -/
def State.setSym (s : State) (v : Symbols) : State := { s with sym := v }

/-- The pseudocode of EXT without its `complete()` (R145). -/
def extBody (s : State) : Run :=
  if s.status.loc = false then .raised s .sequence 0
  else .goesOn (s.setSym (sliceWindow s.bbuf s.offset)).setSymv

/-- EXT (R145): slices the 25 symbols of the located window. -/
def execExt (s : State) : Outcome := .next (extBody s).finish

end Sys2Proof.Machine
end

