-- ==== Sys2Proof/Machine/Validator.lean ====
section
/-! DEFINITION. The checksum and symmetry validator, CHK and VAL (spec/44_validator.md R160 to R171). -/

namespace Sys2Proof.Machine

/-- The reversal check (d): `SYM[0] = rev8(SYM[24])` (R161). -/
def reversalHolds (v : Symbols) : Bool := v.at 0 == rev8 (v.at 24)

/-- The first `i` of 1..12 whose mirror pair (i, 24-i) differs, step (e) (R162). -/
def firstMirrorFault (v : Symbols) : Option Nat := Profile.mirrorRange.find? fun i => v.at i != v.at (24 - i)

/-- The checksum of step (f): 0xFF ⊕ SYM[1] ⊕ … ⊕ SYM[10] (R163). -/
def checksum (v : Symbols) : Symbol := Profile.xsumRange.foldl (fun x i => x ^^^ v.at i) Profile.xsumSeed

/-- The decoded record: every symbol inverted, step (g) (R164). -/
def invertAll (v : Symbols) : Symbols := Vector.ofFn fun j => inv8 v[j.val]

/-- `XSUM <- x`. -/
def State.setXsum (s : State) (x : Symbol) : State := { s with xsum := x }

/-- `REC <- v`. -/
def State.setRecord (s : State) (v : Symbols) : State := { s with record := v }

/-- Step (f) and step (g) of CHK: XSUM is written before the comparison (R163), REC after it (R164). -/
def chkSum (s : State) : Run :=
  if checksum s.sym ≠ s.sym.at Profile.xsumSym then .raised (s.setXsum (checksum s.sym)) .checksum Profile.xsumSym
  else .goesOn (((s.setXsum (checksum s.sym)).setRecord (invertAll s.sym)).setRvalid true)

/-- The pseudocode of CHK without its `complete()` (R160). -/
def chkBody (s : State) : Run :=
  if s.status.symv = false then .raised s .sequence 0
  else if reversalHolds s.sym = false then .raised (s.setRvalid false) .mirror0 0
  else
    match firstMirrorFault s.sym with
    | some i => .raised (s.setRvalid false) .mirror i
    | none => chkSum (s.setRvalid false)

/-- CHK (R160): checks the symbols and produces the record. -/
def execChk (s : State) : Outcome := .next (chkBody s).finish

/-- The pseudocode of VAL (R166): FND, EXT and CHK, each without its `complete()`. -/
def valBody (s : State) : Run := ((fndBody s).andThen extBody).andThen chkBody

/-- VAL (R166): validates the bitstream in one command. -/
def execVal (s : State) : Outcome := .next (valBody s).finish

end Sys2Proof.Machine
end

