-- ==== Sys2Proof/Machine/Dispatch.lean ====
section
/-! DEFINITION. Which meaning each command has: one arm per constructor of Instr (spec/30_encoding.md R85). -/

namespace Sys2Proof.Machine

def exec (i : Instr) (s : State) : Host.Outcome State Fault Refusal :=
  match i with
  | .nop => Sys2Proof.Machine.execNop s
  | .clr => Sys2Proof.Machine.execClr s
  | .ldi ival => Sys2Proof.Machine.execLdi ival s
  | .ldb nb bdata => Sys2Proof.Machine.execLdb nb bdata s
  | .dec => Sys2Proof.Machine.execDec s
  | .fnd => Sys2Proof.Machine.execFnd s
  | .ext => Sys2Proof.Machine.execExt s
  | .chk => Sys2Proof.Machine.execChk s
  | .val => Sys2Proof.Machine.execVal s

end Sys2Proof.Machine
end

