-- ==== Sys2Proof/Machine/HostPort.lean ====
section
/-! DEFINITION. The host port: the register map and every host access (spec/20_memory.md R50 to R76). -/

namespace Sys2Proof.Machine

/-- The registers of the map (R51).  Windows carry the index of their word. -/
inductive Reg where
  | id
  | cmd
  | status
  | ctrl
  | icnt
  | bcnt
  | base8
  | fidx
  | offset
  | xsum
  | nint
  | nbit
  | symw (k : Nat)
  | recw (k : Nat)
  | bwin (k : Nat)
  | iwin (k : Nat)
  deriving DecidableEq, Repr

/-- The block identity "BDV1" (R35). -/
def blockId : Word := 0x42445631#32

/-- The registers of R51 that have one fixed offset each. -/
def fixedMap : List (Nat × Reg) :=
  [(0x00, .id), (0x04, .cmd), (0x08, .status), (0x0C, .ctrl), (0x10, .icnt), (0x14, .bcnt), (0x18, .base8), (0x1C, .fidx),
   (0x20, .offset), (0x24, .xsum), (0x28, .nint), (0x2C, .nbit)]

/-- Words of SYMW and of RECW (R51). -/
abbrev packedWords : Nat := 7

/-- Words of BWIN: ceil(N_BIT/32) (R51). -/
def bwinWords (p : Config.Params) : Nat := (p.nBit + 31) / 32

/-- The register at word-aligned byte address `a`; none where the map has none (R51). -/
def regAt (p : Config.Params) (a : Nat) : Option Reg :=
  if a < 0x40 then fixedMap.lookup a
  else if a < 0x60 then if (a - 0x40) / 4 < packedWords then some (.symw ((a - 0x40) / 4)) else none
  else if a < 0x80 then if (a - 0x60) / 4 < packedWords then some (.recw ((a - 0x60) / 4)) else none
  else if a < 0x10000 then none
  else if a < 0x40000 then if (a - 0x10000) / 4 < bwinWords p then some (.bwin ((a - 0x10000) / 4)) else none
  else if (a - 0x40000) / 4 < p.nInt then some (.iwin ((a - 0x40000) / 4)) else none

/-- The offset of a register (R51). -/
def Reg.addr : Reg → Nat
  | .id => 0x00
  | .cmd => 0x04
  | .status => 0x08
  | .ctrl => 0x0C
  | .icnt => 0x10
  | .bcnt => 0x14
  | .base8 => 0x18
  | .fidx => 0x1C
  | .offset => 0x20
  | .xsum => 0x24
  | .nint => 0x28
  | .nbit => 0x2C
  | .symw k => 0x40 + 4 * k
  | .recw k => 0x60 + 4 * k
  | .bwin k => 0x10000 + 4 * k
  | .iwin k => 0x40000 + 4 * k

/-- The register exists on a block with parameters `p`: the ranges of `k` in R51. -/
def Reg.mapped (p : Config.Params) : Reg → Bool
  | .symw k => decide (k < packedWords)
  | .recw k => decide (k < packedWords)
  | .bwin k => decide (k < bwinWords p)
  | .iwin k => decide (k < p.nInt)
  | _ => true

/-- The register an access is to, where the access is supported: 4 bytes, aligned, mapped (R60, R63). -/
def supported (p : Config.Params) (a : Addr) (n : Nat) : Option Reg :=
  if n = 4 ∧ a.toNat % 4 = 0 then regAt p a.toNat else none

/-- The register's value by R52 to R58. -/
def State.readReg (s : State) : Reg → Word
  | .id => blockId
  | .cmd => 0#32
  | .status => s.status.word
  | .ctrl => ctrlWord s.ie
  | .icnt => countWord s.icnt
  | .bcnt => countWord s.bcnt
  | .base8 => s.base8
  | .fidx => countWord s.fidx
  | .offset => countWord s.offset
  | .xsum => s.xsum.setWidth 32
  | .nint => countWord s.params.nInt
  | .nbit => countWord s.params.nBit
  | .symw k => if s.status.symv then packSymbols s.sym k else 0#32
  | .recw k => if s.status.rvalid then packSymbols s.record k else 0#32
  | .bwin k => s.bwinWord k
  | .iwin k => s.iwinWord k

/-- The registers that read their value while BUSY = 1 too: ID, NINT, NBIT and CTRL (R65), and CMD, which always reads 0
(R53; log entry 9). -/
def Reg.exactWhileBusy : Reg → Bool
  | .id | .cmd | .ctrl | .nint | .nbit => true
  | .status | .icnt | .bcnt | .base8 | .fidx | .offset | .xsum | .symw _ | .recw _ | .bwin _ | .iwin _ => false

/-- `rdata` returns `w`. -/
def State.returnWord (s : State) (w : Word) : State := { s with rdata := w }

/-- A supported read while BUSY = 1 (R65): exact, exact in the bits of STATUS it names, or any value. -/
def State.readBusy (s : State) (r : Reg) : State :=
  if r.exactWhileBusy then s.returnWord (s.readReg r)
  else if r = .status then s.drawRead.returnWord (s.status.busyWord (Config.freeWord s.draws))
  else s.drawRead

/-- `MemRead(addr, n)` (R60): the word read stands in `rdata`. -/
def State.memRead (s : State) (a : Addr) (n : Nat) : State :=
  match supported s.params a n with
  | none => s.setBerr.returnWord 0#32
  | some r => if s.status.busy then s.readBusy r else s.returnWord (s.readReg r)

/-- A supported write of `w` to CMD (R53): a command issue, or an overrun (R62). -/
def State.writeCmd (s : State) (w : Word) : State := if s.status.busy then s.setOvr else s.accept w

/-- A supported write of `w` to STATUS (R54): bit 1 clears DONE, every other bit is ignored. -/
def State.writeStatus (s : State) (w : Word) : State := if w.getLsbD 1 then s.clearDone else s

/-- A supported write of `w` to CTRL (R55): bit 0 is IE, every other bit is ignored. -/
def State.writeCtrl (s : State) (w : Word) : State := { s with ie := w.getLsbD 0 }

/-- `MemWrite(addr, n, v)` (R61): only CMD, STATUS and CTRL can be written; a write to another register is ignored. -/
def State.memWrite (s : State) (a : Addr) (n : Nat) (v : Word) : State :=
  match supported s.params a n with
  | none => s.setBerr
  | some .cmd => s.writeCmd v
  | some .status => s.writeStatus v
  | some .ctrl => s.writeCtrl v
  | some _ => s

/-- One host access (R59). -/
def State.access (s : State) : Access → State
  | .read a n => s.memRead a n
  | .write a n v => s.memWrite a n v

/-- The block's input signals at a rising edge of `clk` (R76). -/
structure Pins where
  rst : Bool
  req : Bool
  we : Bool
  addr : Addr
  be : BitVec 4
  wdata : Word
  deriving DecidableEq, Repr

/-- The bytes an access moves: how many byte enables are set (R76; log entry 10). -/
def byteCount (be : BitVec 4) : Nat := ((List.range 4).filter be.getLsbD).length

/-- The access the pins present, if they present one (R76). -/
def Pins.access (p : Pins) : Option Access :=
  if p.req then
    if p.we then some (.write p.addr (byteCount p.be) p.wdata) else some (.read p.addr (byteCount p.be))
  else none

/-- The turn the pins give the block (R76, R200, R201); none where nothing is asked of it. -/
def Pins.turn (p : Pins) : Option Turn := if p.rst then some (.reset p.access) else p.access.map .host

/-- The offset in the register space of a system byte address, where the block's 20-bit space holds it (R69). -/
def offsetOf (sys : Nat) : Option Addr :=
  if Config.bdvBase ≤ sys ∧ sys < Config.bdvBase + 2 ^ 20 then some (BitVec.ofNat 20 (sys - Config.bdvBase)) else none

end Sys2Proof.Machine
end

