-- ==== Sys2Proof/Machine/Engine.lean ====
section
/-! DEFINITION. One turn of each agent of the block (spec/00_scope.md R9): the engine, the host, reset. -/

namespace Sys2Proof.Machine

/-- The engine executes the pending word (R181): it decodes PEND, then runs the command's rule; an illegal word raises
ILLEGAL and changes no other state (R187). -/
def State.executePending (s : State) : Outcome :=
  match decode s.pend with
  | .instr i => exec i s
  | .illegal _ => .next (s.raise .illegal 0)

/-- The engine's turn (R181): while BUSY = 0 it has no step. -/
def State.engineTurn (s : State) : Outcome := if s.status.busy then s.executePending else .next s

/-- One turn of the agent that moves. -/
def State.takeTurn (s : State) : Turn → Outcome
  | .engine => s.engineTurn
  | .host a => .next (s.access a)
  | .reset a => .next (s.resetWith a)

/-- The state with its first turn taken off the schedule. -/
def State.dropTurn (s : State) : State := { s with schedule := s.schedule.tail }

/-- The schedule set so that the very next turn is the engine's; an empty schedule leaves the turn to it already. -/
def State.engineNext (s : State) : State :=
  match s.schedule with
  | [] => s
  | t :: rest => { s with schedule := .engine :: t :: rest }

end Sys2Proof.Machine
end

