-- ==== Sys2Proof/Machine/Step.lean ====
section
/-! DEFINITION. One step of the machine: the next turn of the schedule (spec/20_memory.md R71), and where a command stands
that the next step runs. -/

namespace Sys2Proof.Machine

/-- One step.  The schedule says which agent moves, in any order (R71).  When it is empty the engine moves, so a pending
command is always completed in the end (R210); with no command pending either, the block waits for a host access
(R197). -/
def step (s : State) : Host.Outcome State Fault Refusal :=
  match s.schedule with
  | [] => s.engineTurn
  | t :: _ => s.dropTurn.takeTurn t

/-- `s` with a command word accepted (R37) and the engine's turn next.  The block fetches nothing (R21): PEND is the one place
its engine takes a command from (log entry 3). -/
def State.withFetchWord (s : State) (nbits w : Nat) : State := (s.accept (tableWord nbits w)).engineNext

end Sys2Proof.Machine
end

