-- ==== Sys2Proof/Machine/Assembler.lean ====
section
/-! DEFINITION. The assembler of spec/30_encoding.md R89 and R90: command lines, pseudo-instructions, and their words.  It is
the host's, and no step of the machine uses it. -/

namespace Sys2Proof.Machine

/-- A command line with its operands as written (R89), or a pseudo-instruction (R90). -/
inductive Asm where
  | nop
  | clr
  | ldi (ival : Nat)
  | ldb (nb data : Nat)
  | dec
  | fnd
  | ext
  | chk
  | val
  /-- `.word w`: written to CMD as is. -/
  | word (w : Nat)
  | ldbyte (v : Nat)
  | ldir (v k : Nat)
  | ldbits (bits : List Bit)
  deriving DecidableEq, Repr

/-- A bit string as a binary numeral, first bit most significant (R90). -/
def bitsNumeral (bits : List Bit) : Nat := bits.foldl (fun n b => 2 * n + b.toNat) 0

/-- The chunks of LDBITS: 16 bits each, the last one 1 to 16 (R90).  `fuel` bounds their number. -/
def chunks16 : (fuel : Nat) → List Bit → List (List Bit)
  | 0, _ => []
  | _ + 1, [] => []
  | fuel + 1, b :: bits => (b :: bits).take 16 :: chunks16 fuel ((b :: bits).drop 16)

/-- The word of `LDI ival`; an operand out of range is rejected, never truncated (R89). -/
def asmLdi (ival : Nat) : Option Word := if ival < 2 ^ 28 then some (encode (.ldi (BitVec.ofNat 28 ival))) else none

/-- The word of `LDB nb, data`; an operand out of range is rejected, never truncated (R89). -/
def asmLdb (nb data : Nat) : Option Word :=
  if 1 ≤ nb ∧ nb ≤ 16 ∧ data < 2 ^ nb then some (encode (.ldb (BitVec.ofNat 5 nb) (BitVec.ofNat 16 data))) else none

/-- The words of a command line (R89, R90); none where the assembler rejects it. -/
def assemble : Asm → Option (List Word)
  | .nop => some [encode .nop]
  | .clr => some [encode .clr]
  | .ldi ival => (asmLdi ival).map ([·])
  | .ldb nb data => (asmLdb nb data).map ([·])
  | .dec => some [encode .dec]
  | .fnd => some [encode .fnd]
  | .ext => some [encode .ext]
  | .chk => some [encode .chk]
  | .val => some [encode .val]
  | .word w => if w < 2 ^ 32 then some [BitVec.ofNat 32 w] else none
  | .ldbyte v => (asmLdb 8 v).map ([·])
  | .ldir v k => if 1 ≤ k then (asmLdi v).map (List.replicate k) else none
  | .ldbits bits =>
    if bits = [] then none
    else (chunks16 bits.length bits).mapM fun chunk => asmLdb chunk.length (bitsNumeral chunk)

/-- The characters of a line before its comment, in capitals: case is not significant and a comment runs from `;` (R89). -/
def codeOf (line : List Char) : List Char := (line.takeWhile (· != ';')).map Char.toUpper

/-- Text without the blanks around it. -/
def trim (t : List Char) : List Char := ((t.dropWhile Char.isWhitespace).reverse.dropWhile Char.isWhitespace).reverse

/-- Text cut at its commas. -/
def splitCommas : List Char → List (List Char)
  | [] => [[]]
  | c :: rest =>
    if c = ',' then [] :: splitCommas rest
    else match splitCommas rest with
      | [] => [[c]]
      | first :: others => (c :: first) :: others

/-- The value of a digit in capitals, in a base of at most 16. -/
def digitValue (base : Nat) (c : Char) : Option Nat :=
  let v := if '0' ≤ c ∧ c ≤ '9' then c.toNat - '0'.toNat else if 'A' ≤ c ∧ c ≤ 'F' then c.toNat - 'A'.toNat + 10 else base
  if v < base then some v else none

/-- The digits of a numeral, most significant first; none where one is no digit. -/
def digits (base : Nat) : List Char → Nat → Option Nat
  | [], n => some n
  | c :: rest, n => (digitValue base c).bind fun v => digits base rest (n * base + v)

/-- A number, decimal or `0x` hexadecimal (R89); the text is in capitals. -/
def number : List Char → Option Nat
  | [] => none
  | '0' :: 'X' :: c :: rest => digits 16 (c :: rest) 0
  | c :: rest => digits 10 (c :: rest) 0

/-- The characters of a string of `0` and `1` up to its closing quote (R90). -/
def bitString : List Char → Option (List Bit)
  | ['"'] => some []
  | '0' :: rest => (bitString rest).map (0#1 :: ·)
  | '1' :: rest => (bitString rest).map (1#1 :: ·)
  | _ => none

/-- A line's first word and its operands, cut at the commas (R89). -/
def fields (code : List Char) : List Char × List (List Char) :=
  let word := (trim code).takeWhile fun c => !c.isWhitespace
  let rest := trim ((trim code).drop word.length)
  (word, if rest = [] then [] else (splitCommas rest).map trim)

/-- A command line from its first word and operands (R89, R90); none where it is no such line. -/
def asmOf : List Char × List (List Char) → Option Asm
  | (['N', 'O', 'P'], []) => some .nop
  | (['C', 'L', 'R'], []) => some .clr
  | (['L', 'D', 'I'], [v]) => (number v).map .ldi
  | (['L', 'D', 'B'], [n, v]) => (number n).bind fun n => (number v).map (.ldb n)
  | (['D', 'E', 'C'], []) => some .dec
  | (['F', 'N', 'D'], []) => some .fnd
  | (['E', 'X', 'T'], []) => some .ext
  | (['C', 'H', 'K'], []) => some .chk
  | (['V', 'A', 'L'], []) => some .val
  | (['.', 'W', 'O', 'R', 'D'], [w]) => (number w).map .word
  | (['L', 'D', 'B', 'Y', 'T', 'E'], [v]) => (number v).map .ldbyte
  | (['L', 'D', 'I', 'R'], [v, k]) => (number v).bind fun v => (number k).map (.ldir v)
  | (['L', 'D', 'B', 'I', 'T', 'S'], ['"' :: s]) => (bitString s).map .ldbits
  | _ => none

end Sys2Proof.Machine
end

