-- ==== Sys2Proof/Machine/HostProgram.lean ====
section
/-! DEFINITION. The host program notation of spec/30_encoding.md R91, as the turns its lines give the agents.  It is the
host's, and no step of the machine uses it.  Where a run ends and what it shows (spec/70_reset_and_hazards.md R211). -/

namespace Sys2Proof.Machine

/-- A line of a host program (R91). -/
inductive Line where
  /-- A command line: each word of its expansion behind a WAIT. -/
  | cmd (a : Asm)
  | wait
  | rd (r : Reg)
  | wr (r : Reg) (v : Nat)
  /-- A write without a preceding WAIT. -/
  | raw (r : Reg) (v : Nat)
  deriving DecidableEq, Repr

/-- `RD NAME`: `MemRead(offset of NAME, 4)`. -/
def readTurn (r : Reg) : Turn := .host (.read (BitVec.ofNat 20 r.addr) 4)

/-- `WR NAME, v`: `MemWrite(offset of NAME, 4, v)`. -/
def writeTurn (r : Reg) (v : Word) : Turn := .host (.write (BitVec.ofNat 20 r.addr) 4 v)

/-- `WAIT`, in the run in which the engine completes the pending command after `polls` reads of STATUS (R91, R210): the reads
that find BUSY = 1, the engine's turn, and the read that finds BUSY = 0.  With no command pending the extra reads change
nothing. -/
def waitTurns (polls : Nat) : List Turn := List.replicate polls (readTurn .status) ++ [.engine, readTurn .status]

/-- The turn of an access to a register by its name; none where R51 has no such register on a block with parameters `q`, so that
the name has no offset (DEDUCED, log entry 18). -/
def named (q : Config.Params) (r : Reg) (turn : Turn) : Option (List Turn) := if r.mapped q then some [turn] else none

/-- The turns of a line (R91) on a block with parameters `q`, every WAIT of it ending after `polls` reads; none where the assembler
rejects it. -/
def Line.turns (q : Config.Params) (polls : Nat) : Line → Option (List Turn)
  | .cmd a => (assemble a).map fun words => words.flatMap fun w => waitTurns polls ++ [writeTurn .cmd w]
  | .wait => some (waitTurns polls)
  | .rd r => named q r (readTurn r)
  | .wr r v => if v < 2 ^ 32 then named q r (writeTurn r (BitVec.ofNat 32 v)) else none
  | .raw r v => if v < 2 ^ 32 then named q r (writeTurn r (BitVec.ofNat 32 v)) else none

/-- A line in one of the runs the spec admits (R71, R205): whether the engine moves before the line's first access, and how many reads
a WAIT of it takes. -/
structure Paced where
  line : Line
  engineFirst : Bool
  polls : Nat
  deriving DecidableEq, Repr

/-- The turns of a line in its run.  DESIGN CHOICE (log entry 11): the engine moves before the line or inside its WAITs, which gives both
outcomes of a write that races a completion (R205), by `engineFirst`. -/
def Paced.turns (q : Config.Params) (l : Paced) : Option (List Turn) :=
  (l.line.turns q l.polls).map fun turns => if l.engineFirst then .engine :: turns else turns

/-- The turns of a program in one of its runs. -/
def programTurns (q : Config.Params) (lines : List Paced) : Option (List Turn) := (lines.mapM (Paced.turns q)).map List.flatten

/-- The turn holds an access of the host, one that coincides with a reset among them (R201). -/
def Turn.hasAccess : Turn → Bool
  | .engine => false
  | .host _ => true
  | .reset a => a.isSome

/-- The run of a host program has ended (R211): the host has made its last access and STATUS.BUSY = 0.  Turns of the engine or of reset
may still be to come. -/
def State.runEnded (s : State) : Bool := !s.schedule.any Turn.hasAccess && !s.status.busy

/-- The point where a run ends: the first state, after at most `fuel` steps, in which it has ended (R211). -/
def State.endOfRun : (fuel : Nat) → State → Option State
  | 0, s => if s.runEnded then some s else none
  | fuel + 1, s =>
    if s.runEnded then some s
    else match step s with
      | .next t => State.endOfRun fuel t
      | _ => none

/-- The observable result of a run at its end (R211): the value of every register of R51; none where there is no such register. -/
def State.runResult (s : State) (r : Reg) : Option Word := if r.mapped s.params then some (s.readReg r) else none

/-- An index in brackets, as in `BWIN[0]`. -/
def bracketed (t : List Char) : Option Nat := if t.getLast? = some ']' then number t.dropLast else none

/-- A register's name (R51, R91), in capitals.  Whether the block has a register of that index, `Line.turns` checks. -/
def regOf : List Char → Option Reg
  | ['I', 'D'] => some .id
  | ['C', 'M', 'D'] => some .cmd
  | ['S', 'T', 'A', 'T', 'U', 'S'] => some .status
  | ['C', 'T', 'R', 'L'] => some .ctrl
  | ['I', 'C', 'N', 'T'] => some .icnt
  | ['B', 'C', 'N', 'T'] => some .bcnt
  | ['B', 'A', 'S', 'E', '8'] => some .base8
  | ['F', 'I', 'D', 'X'] => some .fidx
  | ['O', 'F', 'F', 'S', 'E', 'T'] => some .offset
  | ['X', 'S', 'U', 'M'] => some .xsum
  | ['N', 'I', 'N', 'T'] => some .nint
  | ['N', 'B', 'I', 'T'] => some .nbit
  | ['S', 'Y', 'M', 'W', k] => (number [k]).map .symw
  | ['R', 'E', 'C', 'W', k] => (number [k]).map .recw
  | 'B' :: 'W' :: 'I' :: 'N' :: '[' :: k => (bracketed k).map .bwin
  | 'I' :: 'W' :: 'I' :: 'N' :: '[' :: k => (bracketed k).map .iwin
  | _ => none

/-- A line of a host program from its text (R89 to R91); none where it is no such line. -/
def parseLine (text : List Char) : Option Line :=
  match fields (codeOf text) with
  | (['W', 'A', 'I', 'T'], []) => some .wait
  | (['R', 'D'], [r]) => (regOf r).map .rd
  | (['W', 'R'], [r, v]) => (regOf r).bind fun r => (number v).map (.wr r)
  | (['R', 'A', 'W'], [r, v]) => (regOf r).bind fun r => (number v).map (.raw r)
  | f => (asmOf f).map .cmd

end Sys2Proof.Machine
end

