-- ==== Sys2Proof/Safety.lean ====
section
/-! DEFINITION. What counts as a safe state of the block, and the terms statements about it use: the invariant of a run,
what an instruction leaves unchanged, the steps of the demodulator as a relation. -/

namespace Sys2Proof.Machine

/-- The checks (d), (e) and (f) of the validation all pass (R160). -/
structure ChecksPass (v : Symbols) : Prop where
  reversal : v.at 0 = rev8 (v.at 24)
  mirror : ∀ i, 1 ≤ i → i ≤ 12 → v.at i = v.at (24 - i)
  sum : checksum v = v.at 13

/-- The sentinel of R140 stands at `q`, bit by bit. -/
structure SentinelBits (b : Buffer 1) (q : Nat) : Prop where
  ones : ∀ k, k < 7 → b.read (q + k) = 1#1
  zero : b.read (q + 7) = 0#1

/-- The sentinel's first occurrence in the first `bcnt` bits is at `p` (R140, R142). -/
structure FirstSentinelAt (b : Buffer 1) (bcnt p : Nat) : Prop where
  inRange : p + 7 < bcnt
  here : SentinelBits b p
  first : ∀ q, q < p → ¬ SentinelBits b q

/-- The sentinel occurs nowhere in the first `bcnt` bits (R140). -/
def NoSentinel (b : Buffer 1) (bcnt : Nat) : Prop := ∀ q, q + 7 < bcnt → ¬ SentinelBits b q

/-- The invariant of a run of the block: the parameters are legal (R8), the arrays are in canonical form and the counts fit
them (R22 to R25), the indexes fit their registers (R27, R30), the status flags say what R32 says they mean. -/
structure Consistent (s : State) : Prop where
  legal : s.params.legal = true
  ibufWf : s.ibuf.wf s.params.nInt = true
  icntFits : s.icnt ≤ s.params.nInt
  bbufWf : s.bbuf.wf s.params.nBit = true
  bcntFits : s.bcnt ≤ s.params.nBit
  offsetFits : s.offset ≤ s.params.nBit
  fidxFits : s.fidx ≤ s.params.nBit
  /-- BUSY = 1 means DONE = 0 (R37, R65). -/
  busyNotDone : s.status.busy = true → s.status.done = false
  /-- A fault code of the last command means ERR = 1 (R32, R183). -/
  faultMeansErr : s.status.fcode ≠ .ok → s.status.err = true
  /-- LOC = 1: OFFSET names the first sentinel, with 200 bits from it in BBUF (R32). -/
  located : s.status.loc = true → FirstSentinelAt s.bbuf s.bcnt s.offset ∧ 200 ≤ s.bcnt - s.offset
  /-- SYMV = 1: SYM holds the window at OFFSET (R32). -/
  sliced : s.status.symv = true → s.status.loc = true ∧ ∀ j, j < 25 → s.sym.at j = sym8 s.bbuf (s.offset + 8 * j)
  /-- RVALID = 1: SYM passed every check and REC = inv8(SYM) (R32); XSUM is its checksum (R163). -/
  validated : s.status.rvalid = true → s.status.symv = true ∧ ChecksPass s.sym ∧ s.xsum = checksum s.sym ∧
    ∀ j, j < 25 → s.record.at j = inv8 (s.sym.at j)

/-- The pieces of State, for saying what an instruction leaves unchanged. -/
inductive Field where
  | params | ibuf | icnt | bbuf | bcnt | base8 | offset | sym | record | fidx | xsum
  | busy | done | err | ovr | berr | loc | symv | rvalid | fcode
  | ie | pend | rdata | schedule | draws
  deriving DecidableEq, Repr

/-- Two states agree on a piece of State; on an array, entry by entry. -/
def Field.Same (s t : State) : Field → Prop
  | .params => t.params = s.params
  | .ibuf => ∀ k, t.ibuf.read k = s.ibuf.read k
  | .icnt => t.icnt = s.icnt
  | .bbuf => ∀ k, t.bbuf.read k = s.bbuf.read k
  | .bcnt => t.bcnt = s.bcnt
  | .base8 => t.base8 = s.base8
  | .offset => t.offset = s.offset
  | .sym => t.sym = s.sym
  | .record => t.record = s.record
  | .fidx => t.fidx = s.fidx
  | .xsum => t.xsum = s.xsum
  | .busy => t.status.busy = s.status.busy
  | .done => t.status.done = s.status.done
  | .err => t.status.err = s.status.err
  | .ovr => t.status.ovr = s.status.ovr
  | .berr => t.status.berr = s.status.berr
  | .loc => t.status.loc = s.status.loc
  | .symv => t.status.symv = s.status.symv
  | .rvalid => t.status.rvalid = s.status.rvalid
  | .fcode => t.status.fcode = s.status.fcode
  | .ie => t.ie = s.ie
  | .pend => t.pend = s.pend
  | .rdata => t.rdata = s.rdata
  | .schedule => t.schedule = s.schedule
  | .draws => t.draws = s.draws

/-- From `s` to `t` nothing changed but the pieces named. -/
def OnlyChanges (fs : List Field) (s t : State) : Prop := ∀ f, f ∉ fs → f.Same s t

/-- The completion fields after a success: FCODE ← 0, BUSY ← 0, DONE ← 1 (R182). -/
structure CompletedOk (t : State) : Prop where
  fcode : t.status.fcode = .ok
  busy : t.status.busy = false
  done : t.status.done = true

/-- The completion fields after `raise Fault(code, fidx)` (R183). -/
structure CompletedFault (t : State) (code : FCode) (fidx : Nat) : Prop where
  fcode : t.status.fcode = code
  fidx : t.fidx = fidx
  err : t.status.err = true
  busy : t.status.busy = false
  done : t.status.done = true

/-- The step from `s` to `t` is the engine's and completes the pending command (R181): the engine's turn is first, or none is
scheduled (log entries 1 and 12). -/
structure CompletesNow (s t : State) : Prop where
  engine : s.schedule = [] ∨ ∃ rest, s.schedule = .engine :: rest
  pending : s.status.busy = true
  busy : t.status.busy = false
  done : t.status.done = true

/-- BBUF[0..BCNT-1], the bitstream. -/
def State.bitstream (s : State) : List Bit := s.bbuf.slice 0 s.bcnt

/-- Case 1 of R124, in the integers of R120. -/
structure IsOne (c nx b8 : Nat) : Prop where
  short : 32 * c < 3 * b8
  next : b8 < 32 * nx

/-- Case 2 of R124, in the integers of R120. -/
structure IsZero (c b8 : Nat) : Prop where
  low : 3 * b8 ≤ 32 * c
  high : 32 * c ≤ 5 * b8

/-- The demodulation of R124 and R130 as a relation: from cursor `i` and baseline `b8` over `x 0`, …, `x (n-1)`, the steps emit
`bits` and leave baseline `b8'`. -/
inductive Demodulates (x : Nat → Nat) (n : Nat) : Nat → Nat → List Bit → Nat → Prop where
  | stop (i b8 : Nat) (h : ¬ i < n - 2) : Demodulates x n i b8 [] b8
  | one (i b8 : Nat) (bits : List Bit) (b8' : Nat) (h : i < n - 2) (hc : IsOne (x i) (x (i + 1)) b8)
      (rest : Demodulates x n (i + 2) (8 * (x i + x (i + 1))) bits b8') : Demodulates x n i b8 (1#1 :: bits) b8'
  | zero (i b8 : Nat) (bits : List Bit) (b8' : Nat) (h : i < n - 2) (hc : IsZero (x i) b8)
      (rest : Demodulates x n (i + 1) (8 * x i) bits b8') : Demodulates x n i b8 (0#1 :: bits) b8'

/-- A DecodeFault by R124 and R128 as a relation: the steps from cursor `i` and baseline `b8` reach index `j` with baseline `b8'`,
and the interval there is in neither band. -/
inductive FailsAt (x : Nat → Nat) (n : Nat) : Nat → Nat → Nat → Nat → Prop where
  | here (i b8 : Nat) (h : i < n - 2) (hone : ¬ IsOne (x i) (x (i + 1)) b8) (hzero : ¬ IsZero (x i) b8) :
      FailsAt x n i b8 i b8
  | one (i b8 j b8' : Nat) (h : i < n - 2) (hc : IsOne (x i) (x (i + 1)) b8)
      (rest : FailsAt x n (i + 2) (8 * (x i + x (i + 1))) j b8') : FailsAt x n i b8 j b8'
  | zero (i b8 j b8' : Nat) (h : i < n - 2) (hc : IsZero (x i) b8) (rest : FailsAt x n (i + 1) (8 * x i) j b8') :
      FailsAt x n i b8 j b8'

/-- The baseline seed times 8, written out (R121, R125). -/
def seedOf (x : Nat → Nat) : Nat := x 1 + x 2 + x 3 + x 4 + x 5 + x 6 + x 7 + x 8

/-- The intervals of a bitstream of biphase cells, each `2 * h` ticks long: a `1` is two half-cells, a `0` is one cell
(R15, R132). -/
def cellsOf (h : Nat) : List Bit → List Nat
  | [] => []
  | b :: bits => (if b = 1#1 then [h, h] else [2 * h]) ++ cellsOf h bits

/-- The host issues a word while BUSY = 0 and the engine completes it (R37, R181). -/
def State.issue (s : State) (w : Word) : Outcome := (s.accept w).engineTurn

/-- The host issues words one after the other, each when the one before it has completed (R91). -/
def State.issueAll (s : State) : List Word → Outcome
  | [] => .next s
  | w :: ws =>
    match s.issue w with
    | .next t => t.issueAll ws
    | o => o

/-- The window at `p` of BBUF as 25 symbols, checked as SYM is (R145, R160). -/
def WindowPasses (b : Buffer 1) (p : Nat) : Prop := ChecksPass (sliceWindow b p)

/-- What VAL leaves of FND and EXT once a whole window is located at `p`: OFFSET, LOC, SYMV, and SYM sliced from it. -/
structure WindowTaken (s t : State) (p : Nat) : Prop where
  offset : t.offset = p
  loc : t.status.loc = true
  symv : t.status.symv = true
  sym : t.sym = sliceWindow s.bbuf p

end Sys2Proof.Machine
end

