-- ==== Sys2Proof/Certificates/Slice0/Obligations.lean ====
section
/-! DEFINITION. The statements about the block, for the provers: one definition per statement, each docstring naming the rule of
spec/ it formalises.  Where a statement names `schedule`, that is how the model says which agent moves next (log entry 1);
where it names `freeWord` or `draws`, that is how it says 'any value' (log entry 4). -/

open Sys2Proof Sys2Proof.Machine

/-! ## Encoding -/

/-- R85, R86, R89: decoding the word of a well-formed command gives the command back, with every operand. -/
def Obligations.DecodeOfEncode : Prop := ∀ i : Instr, i.WellFormed → decode (encode i) = .instr i

/-- R86: a word decodes to at most one command, that command is legal, and the word is its word. -/
def Obligations.EncodeOfDecode : Prop := ∀ (w : Word) (i : Instr), decode w = .instr i → i.WellFormed ∧ encode i = w

/-- R87: which words are illegal, in arithmetic on the word; that executing one changes nothing but by the completion with
ILLEGAL; and that no word but 0x00000000 is a NOP. -/
def Obligations.IllegalWords : Prop :=
  (∀ w : Word, (∃ why, decode w = .illegal why) ↔
    (9 ≤ w.toNat / 2 ^ 28 ∨
      (w.toNat / 2 ^ 28 ∈ [0, 1, 4, 5, 6, 7, 8] ∧ w.toNat % 2 ^ 28 ≠ 0) ∨
      (w.toNat / 2 ^ 28 = 3 ∧
        ¬(w.toNat / 2 ^ 21 % 2 ^ 7 = 0 ∧ 1 ≤ w.toNat / 2 ^ 16 % 2 ^ 5 ∧ w.toNat / 2 ^ 16 % 2 ^ 5 ≤ 16 ∧
          w.toNat % 2 ^ 16 < 2 ^ (w.toNat / 2 ^ 16 % 2 ^ 5))))) ∧
  (∀ (s : State) (why : Illegal), s.status.busy = true → decode s.pend = .illegal why →
    ∃ t, s.engineTurn = .next t ∧ CompletedFault t .illegal 0 ∧ OnlyChanges [.fidx, .fcode, .err, .busy, .done] s t) ∧
  (∀ w : Word, decode w = .instr .nop → w = 0x00000000#32)

/-- R81 to R86: words written out from the encoding of each format decode to the command they stand for. -/
def Obligations.WordsOfEachFormat : Prop :=
  decode 0x00000000#32 = .instr .nop ∧ decode 0x10000000#32 = .instr .clr ∧ decode 0x20000014#32 = .instr (.ldi 20#28) ∧
    decode 0x300800FE#32 = .instr (.ldb 8#5 0xFE#16) ∧ decode 0x3010FFFF#32 = .instr (.ldb 16#5 0xFFFF#16) ∧
    decode 0x40000000#32 = .instr .dec ∧ decode 0x50000000#32 = .instr .fnd ∧ decode 0x60000000#32 = .instr .ext ∧
    decode 0x70000000#32 = .instr .chk ∧ decode 0x80000000#32 = .instr .val ∧
    decode 0x30110000#32 = .illegal .ldbCount ∧ decode 0x30010002#32 = .illegal .ldbData ∧
    decode 0x90000000#32 = .illegal .reservedOpcode

/-- R59, R71, R181: whose turn it is decides the step.  With a command pending, the engine's step is the command's meaning: when
its turn is first, and when no turn is scheduled; a pending illegal word is completed with ILLEGAL (R187).  While BUSY = 0 the
engine has no step, and with no turn scheduled the block does nothing (R181, R197).  A host turn is its access, a reset turn the reset, each at that state less
the turn.  After withFetchWord has placed a word, step runs it.  The model's choices in it: the schedule says whose turn it is
(log entry 1), with none scheduled the engine moves (log entry 12; R181 says only that it may), and withFetchWord stands
for an accepted CMD write (log entry 3). -/
def Obligations.StepRunsDecodedCommand : Prop :=
  (∀ (s : State) (i : Instr), s.status.busy = true → decode s.pend = .instr i →
    (s.schedule = [] → step s = exec i s) ∧
    (∀ rest, s.schedule = .engine :: rest → step s = exec i { s with schedule := rest })) ∧
  (∀ (s : State) (why : Illegal), s.status.busy = true → decode s.pend = .illegal why →
    (s.schedule = [] → ∃ t, step s = .next t ∧ CompletedFault t .illegal 0 ∧
      OnlyChanges [.fidx, .fcode, .err, .busy, .done] s t) ∧
    (∀ rest, s.schedule = .engine :: rest → ∃ t, step s = .next t ∧ t.schedule = rest ∧ CompletedFault t .illegal 0 ∧
      OnlyChanges [.fidx, .fcode, .err, .busy, .done, .schedule] s t)) ∧
  (∀ s : State, s.status.busy = false →
    (s.schedule = [] → step s = .next s) ∧
    (∀ rest, s.schedule = .engine :: rest → step s = .next { s with schedule := rest })) ∧
  (∀ (s : State) (a : Addr) (n : Nat) (rest : List Turn), s.schedule = .host (.read a n) :: rest →
    step s = .next (State.memRead { s with schedule := rest } a n)) ∧
  (∀ (s : State) (a : Addr) (n : Nat) (v : Word) (rest : List Turn), s.schedule = .host (.write a n v) :: rest →
    step s = .next (State.memWrite { s with schedule := rest } a n v)) ∧
  (∀ (s : State) (a : Option Access) (rest : List Turn), s.schedule = .reset a :: rest →
    step s = .next (State.resetWith { s with schedule := rest } a)) ∧
  (∀ (s : State) (n w : Nat) (i : Instr), decodeTableWord n w = some i →
    step (s.withFetchWord n w) = exec i (s.accept (tableWord n w)))

/-! ## Reset and the invariant of a run -/

/-- R39: the values after reset, for a block of any parameters. -/
def Obligations.ResetValues : Prop :=
  ∀ (p : Config.Params) (s : State), s = State.resetOf p → s.icnt = 0 ∧ s.bcnt = 0 ∧ s.base8 = 0#32 ∧ s.offset = 0 ∧
    (∀ j, j < 25 → s.sym.at j = 0#8 ∧ s.record.at j = 0#8) ∧ s.fidx = 0 ∧ s.xsum = 0#8 ∧
    s.readReg .status = 0x00000000#32 ∧ s.status.fcode = .ok ∧ s.readReg .ctrl = 0x00000000#32 ∧ s.ie = false ∧
    s.irq = false ∧ s.readReg .id = 0x42445631#32 ∧ s.readReg .nint = BitVec.ofNat 32 p.nInt ∧
    s.readReg .nbit = BitVec.ofNat 32 p.nBit

/-- R200, R201: a reset at any point, busy or not, leaves the reset state: every element R39 gives a value has it, every register
reads as right after reset, nothing is pending, the parameters stay; an access presented at the same edge has no effect but
for the word a read returns, which is a free value. -/
def Obligations.ResetFromAnyState : Prop :=
  ∀ (s : State) (a : Option Access) (rest : List Turn), s.schedule = .reset a :: rest →
    ∃ t, step s = .next t ∧ t.schedule = rest ∧ t.params = s.params ∧ t.status.busy = false ∧ t.irq = false ∧
      (∀ r : Reg, t.readReg r = (State.resetOf s.params).readReg r) ∧
      OnlyChanges [.ibuf, .bbuf, .pend, .rdata, .schedule, .draws] (State.resetOf s.params) t ∧
      (∀ x n, a = some (.read x n) → t.rdata = Config.freeWord s.draws)

/-- The invariant holds right after reset, whatever the legal parameters are (R8, R39). -/
def Obligations.ConsistentAtReset : Prop := (∀ p : Config.Params, p.legal = true → Consistent (State.resetOf p)) ∧ Consistent State.reset

/-- Every step of every agent keeps the invariant: the arrays stay canonical and within their depth, the counts and indexes fit,
and LOC, SYMV, RVALID, DONE and ERR keep meaning what R32 says they mean. -/
def Obligations.StepKeepsConsistent : Prop := ∀ s t : State, Consistent s → step s = .next t → Consistent t

/-- R29, R165: no partial record is visible.  Where a record word reads other than 0, the window at OFFSET passes every check and
the record is its inversion. -/
def Obligations.NoPartialRecordVisible : Prop :=
  ∀ (s : State) (k : Nat), Consistent s → s.readReg (.recw k) ≠ 0#32 →
    s.status.rvalid = true ∧ WindowPasses s.bbuf s.offset ∧
      ∀ j, j < 25 → s.record.at j = inv8 (sym8 s.bbuf (s.offset + 8 * j))

/-- R32, R190: what sets and what clears BUSY, DONE and the sticky bits.  ERR is set only by a faulting completion, OVR only by a
CMD write while busy, BERR only by an unsupported access; each is cleared only by the engine executing CLR and by reset.
BUSY is set only by the acceptance of a CMD write, and cleared only by a completion and by reset.  DONE is set only by a
completion, and cleared only by an acceptance, by a write of a word with bit 1 set to STATUS, and by reset. -/
def Obligations.WhoChangesTheStatusBits : Prop :=
  ∀ s t : State, step s = .next t →
    (s.status.err = false → t.status.err = true → CompletesNow s t ∧ t.status.fcode ≠ .ok) ∧
    (s.status.ovr = false → t.status.ovr = true →
      s.status.busy = true ∧ ∃ w rest, s.schedule = .host (.write 0x00004#20 4 w) :: rest) ∧
    (s.status.berr = false → t.status.berr = true →
      ∃ a n rest, supported s.params a n = none ∧
        (s.schedule = .host (.read a n) :: rest ∨ ∃ v, s.schedule = .host (.write a n v) :: rest)) ∧
    ((s.status.err = true ∧ t.status.err = false) ∨ (s.status.ovr = true ∧ t.status.ovr = false) ∨
        (s.status.berr = true ∧ t.status.berr = false) →
      (∃ a rest, s.schedule = .reset a :: rest) ∨ (CompletesNow s t ∧ decode s.pend = .instr .clr)) ∧
    (s.status.busy = false → t.status.busy = true →
      ∃ rest, s.schedule = .host (.write 0x00004#20 4 t.pend) :: rest) ∧
    (s.status.busy = true → t.status.busy = false → (∃ a rest, s.schedule = .reset a :: rest) ∨ CompletesNow s t) ∧
    (s.status.done = false → t.status.done = true → CompletesNow s t) ∧
    (s.status.done = true → t.status.done = false →
      (∃ a rest, s.schedule = .reset a :: rest) ∨
      (s.status.busy = false ∧ t.status.busy = true ∧ ∃ rest, s.schedule = .host (.write 0x00004#20 4 t.pend) :: rest) ∨
      ∃ w rest, w.getLsbD 1 = true ∧ s.schedule = .host (.write 0x00008#20 4 w) :: rest)

/-! ## The host port -/

/-- R37: acceptance of a command written while BUSY = 0, of an illegal word too. -/
def Obligations.CommandAcceptance : Prop :=
  ∀ (s : State) (w : Word) (rest : List Turn), s.schedule = .host (.write 0x00004#20 4 w) :: rest → s.status.busy = false →
    ∃ t, step s = .next t ∧ t.pend = w ∧ t.status.busy = true ∧ t.status.done = false ∧ t.schedule = rest ∧
      OnlyChanges [.pend, .busy, .done, .schedule] s t ∧
      (∀ why, decode w = .illegal why → ∃ u, t.engineTurn = .next u ∧ u.status.fcode = .illegal)

/-- R62: a supported CMD write while BUSY = 1 sets OVR and changes nothing else. -/
def Obligations.CommandOverrun : Prop :=
  ∀ (s : State) (w : Word) (rest : List Turn), s.schedule = .host (.write 0x00004#20 4 w) :: rest → s.status.busy = true →
    ∃ t, step s = .next t ∧ t.status.ovr = true ∧ t.schedule = rest ∧ OnlyChanges [.ovr, .schedule] s t

/-- R71, R205: a CMD write that races the completion of the pending command has both outcomes: behind the engine's turn it is
accepted, before it it is dropped.  The model's choices in it: the schedule says whose turn it is (log entry 1), and a completion
keeps the completed word in PEND, by which the drop is said (log entry 7; the spec leaves PEND any value while BUSY = 0). -/
def Obligations.RacingWriteHasBothOutcomes : Prop :=
  ∀ (s : State) (w : Word), s.status.busy = true →
    (∃ t, Sys2Proof.core.run 2 { s with schedule := [.engine, .host (.write 0x00004#20 4 w)] } = .next t ∧
      t.status.busy = true ∧ t.pend = w ∧ t.status.done = false) ∧
    (∃ t, Sys2Proof.core.run 2 { s with schedule := [.host (.write 0x00004#20 4 w), .engine] } = .next t ∧
      t.status.busy = false ∧ t.pend = s.pend ∧ t.status.done = true)

/-- R63, R64, R67: an access of another size than 4, misaligned, or to an address with no register sets BERR; a read returns 0
and changes nothing else, a write changes nothing else, also while BUSY = 1. -/
def Obligations.UnsupportedAccess : Prop :=
  ∀ (s : State) (a : Addr) (n : Nat) (v : Word), s.params.legal = true →
    (n ≠ 4 ∨ a.toNat % 4 ≠ 0 ∨ ∀ r : Reg, r.mapped s.params = true → r.addr ≠ a.toNat) →
    ((s.memRead a n).status.berr = true ∧ (s.memRead a n).rdata = 0#32 ∧ OnlyChanges [.rdata, .berr] s (s.memRead a n)) ∧
    ((s.memWrite a n v).status.berr = true ∧ OnlyChanges [.berr] s (s.memWrite a n v))

/-- R51: the register map.  On a block of legal parameters every register of the map is reached by a 4-byte access at its offset,
and every supported access reaches the register of its address.  The offsets and the ranges of `k` are R51's numbers, written out. -/
def Obligations.RegisterMap : Prop :=
  ∀ p : Config.Params, p.legal = true →
    (∀ r : Reg, r.mapped p = true → r.addr < 2 ^ 20 ∧ supported p (BitVec.ofNat 20 r.addr) 4 = some r) ∧
    (∀ (a : Addr) (n : Nat) (r : Reg), supported p a n = some r → n = 4 ∧ a.toNat = r.addr ∧ r.mapped p = true) ∧
    (supported p 0x00000#20 4 = some .id ∧ supported p 0x00004#20 4 = some .cmd ∧ supported p 0x00008#20 4 = some .status ∧
      supported p 0x0000C#20 4 = some .ctrl ∧ supported p 0x00010#20 4 = some .icnt ∧ supported p 0x00014#20 4 = some .bcnt ∧
      supported p 0x00018#20 4 = some .base8 ∧ supported p 0x0001C#20 4 = some .fidx ∧
      supported p 0x00020#20 4 = some .offset ∧ supported p 0x00024#20 4 = some .xsum ∧
      supported p 0x00028#20 4 = some .nint ∧ supported p 0x0002C#20 4 = some .nbit) ∧
    (∀ k, (k < 7 → supported p (BitVec.ofNat 20 (0x00040 + 4 * k)) 4 = some (.symw k) ∧
        supported p (BitVec.ofNat 20 (0x00060 + 4 * k)) 4 = some (.recw k)) ∧
      (k < (p.nBit + 31) / 32 → supported p (BitVec.ofNat 20 (0x10000 + 4 * k)) 4 = some (.bwin k)) ∧
      (k < p.nInt → supported p (BitVec.ofNat 20 (0x40000 + 4 * k)) 4 = some (.iwin k))) ∧
    (∀ k, ((Reg.symw k).mapped p = true ↔ k < 7) ∧ ((Reg.recw k).mapped p = true ↔ k < 7) ∧
      ((Reg.bwin k).mapped p = true ↔ k < (p.nBit + 31) / 32) ∧ ((Reg.iwin k).mapped p = true ↔ k < p.nInt))

/-- R51, R53, R60: while BUSY = 0 a supported read returns the register's value and changes nothing; and the registers that hold
one element read it, zero-extended, CMD reads 0 and the constants read their values. -/
def Obligations.SupportedReadReturnsRegister : Prop :=
  (∀ (s : State) (r : Reg) (rest : List Turn), s.params.legal = true → r.mapped s.params = true → s.status.busy = false →
    s.schedule = .host (.read (BitVec.ofNat 20 r.addr) 4) :: rest →
    ∃ t, step s = .next t ∧ t.rdata = s.readReg r ∧ OnlyChanges [.rdata, .schedule] s t) ∧
  (∀ s : State, Consistent s →
    s.readReg .cmd = 0#32 ∧ s.readReg .id = 0x42445631#32 ∧ (s.readReg .icnt).toNat = s.icnt ∧
    (s.readReg .bcnt).toNat = s.bcnt ∧ s.readReg .base8 = s.base8 ∧ (s.readReg .fidx).toNat = s.fidx ∧
    (s.readReg .offset).toNat = s.offset ∧ (s.readReg .xsum).toNat = s.xsum.toNat ∧
    (s.readReg .nint).toNat = s.params.nInt ∧ (s.readReg .nbit).toNat = s.params.nBit)

/-- R59, R68: a read has no side effect; besides the word it returns (and the model's count of free values) only BERR can
change, and only by an unsupported access. -/
def Obligations.ReadsHaveNoSideEffects : Prop :=
  ∀ (s : State) (a : Addr) (n : Nat), OnlyChanges [.rdata, .draws, .berr] s (s.memRead a n) ∧
    (supported s.params a n ≠ none → OnlyChanges [.rdata, .draws] s (s.memRead a n))

/-- R65: reads while BUSY = 1.  ID, NINT, NBIT and CTRL are exact; STATUS is exact in BUSY = 1, DONE = 0, OVR, BERR and the
reserved bits, its other bits are bits of a free value; every other register of R65's list returns a free value; each
such read draws a new one.  Once BUSY = 0, every register reads its value. -/
def Obligations.ReadsWhileBusy : Prop :=
  ∀ (s : State) (r : Reg), Consistent s → r.mapped s.params = true →
    (s.status.busy = true → r ∈ [.id, .nint, .nbit, .ctrl] →
      (s.memRead (BitVec.ofNat 20 r.addr) 4).rdata = s.readReg r) ∧
    (s.status.busy = true → r = .status → ∃ t, s.memRead 0x00008#20 4 = t ∧ t.draws = s.draws + 1 ∧
      t.rdata.getLsbD 0 = true ∧ t.rdata.getLsbD 1 = false ∧ t.rdata.getLsbD 3 = s.status.ovr ∧
      t.rdata.getLsbD 4 = s.status.berr ∧ (∀ k, 12 ≤ k → t.rdata.getLsbD k = false) ∧
      ∀ k, k ∈ [2, 5, 6, 7, 8, 9, 10, 11] → t.rdata.getLsbD k = (Config.freeWord s.draws).getLsbD k) ∧
    (s.status.busy = true → r ∉ [.id, .cmd, .nint, .nbit, .ctrl, .status] →
      ∃ t, s.memRead (BitVec.ofNat 20 r.addr) 4 = t ∧ t.rdata = Config.freeWord s.draws ∧ t.draws = s.draws + 1) ∧
    (s.status.busy = false → (s.memRead (BitVec.ofNat 20 r.addr) 4).rdata = s.readReg r)

/-- R32, R54, R180: the STATUS register.  A read returns its fields in their places, the fault code as R180 numbers it; a write of a word with bit 1 set clears DONE and so
deasserts irq, and changes nothing else; another word changes nothing. -/
def Obligations.StatusRegister : Prop :=
  (∀ s : State, s.status.busy = false → ∃ t, s.memRead 0x00008#20 4 = t ∧ t.rdata.getLsbD 0 = s.status.busy ∧
    t.rdata.getLsbD 1 = s.status.done ∧ t.rdata.getLsbD 2 = s.status.err ∧ t.rdata.getLsbD 3 = s.status.ovr ∧
    t.rdata.getLsbD 4 = s.status.berr ∧ t.rdata.getLsbD 5 = s.status.loc ∧ t.rdata.getLsbD 6 = s.status.symv ∧
    t.rdata.getLsbD 7 = s.status.rvalid ∧ t.rdata.extractLsb' 8 4 = s.status.fcode.code ∧
    t.rdata.extractLsb' 12 20 = 0#20) ∧
  (∀ (s : State) (w : Word), ∃ t, s.memWrite 0x00008#20 4 w = t ∧ OnlyChanges [.done] s t ∧
    (w.getLsbD 1 = true → t.status.done = false ∧ t.irq = false) ∧
    (w.getLsbD 1 = false → t.status.done = s.status.done)) ∧
  (FCode.ok.code = 0#4 ∧ FCode.illegal.code = 1#4 ∧ FCode.overflow.code = 2#4 ∧ FCode.shortInput.code = 3#4 ∧
    FCode.decode.code = 4#4 ∧ FCode.noSentinel.code = 5#4 ∧ FCode.shortWindow.code = 6#4 ∧ FCode.mirror0.code = 7#4 ∧
    FCode.mirror.code = 8#4 ∧ FCode.checksum.code = 9#4 ∧ FCode.sequence.code = 10#4)

/-- R55: the CTRL register, busy or not.  A read returns IE in bit 0 and 0 elsewhere; a write takes IE from bit 0. -/
def Obligations.CtrlRegister : Prop :=
  ∀ (s : State) (w : Word),
    (s.memRead 0x0000C#20 4).rdata = (BitVec.ofBool s.ie).setWidth 32 ∧
    (s.memWrite 0x0000C#20 4 w).ie = w.getLsbD 0 ∧ OnlyChanges [.ie] s (s.memWrite 0x0000C#20 4 w)

/-- R61: a write to a mapped register that is read-only is ignored without error. -/
def Obligations.ReadOnlyWritesIgnored : Prop :=
  ∀ (s : State) (r : Reg) (v : Word), s.params.legal = true → r.mapped s.params = true → r ∉ [.cmd, .status, .ctrl] →
    s.memWrite (BitVec.ofNat 20 r.addr) 4 v = s

/-- R56: BWIN[k] shows the bitstream in order, the earliest bit of 32 in bit 31, and 0 at or beyond BCNT. -/
def Obligations.BwinShowsTheBitstream : Prop :=
  ∀ (s : State) (k j : Nat), s.params.legal = true → s.status.busy = false → k < (s.params.nBit + 31) / 32 → j < 32 →
    (s.memRead (BitVec.ofNat 20 (0x10000 + 4 * k)) 4).rdata.getLsbD (31 - j) =
      if 32 * k + j < s.bcnt then (s.bbuf.read (32 * k + j)).getLsbD 0 else false

/-- R57: IWIN[k] shows interval k, and 0 at or beyond ICNT. -/
def Obligations.IwinShowsTheIntervals : Prop :=
  ∀ (s : State) (k : Nat), s.params.legal = true → s.status.busy = false → k < s.params.nInt →
    (s.memRead (BitVec.ofNat 20 (0x40000 + 4 * k)) 4).rdata.toNat = if k < s.icnt then (s.ibuf.read k).toNat else 0

/-- R58: SYMWk and RECWk pack four symbols each, the lowest-numbered in bits 7:0, and read 0 where there is no such symbol or
SYMV (RVALID) is 0. -/
def Obligations.SymbolWindows : Prop :=
  ∀ (s : State) (k j : Nat), s.params.legal = true → s.status.busy = false → k < 7 → j < 4 →
    (s.memRead (BitVec.ofNat 20 (0x40 + 4 * k)) 4).rdata.extractLsb' (8 * j) 8 =
      (if 4 * k + j ≤ 24 ∧ s.status.symv = true then s.sym.at (4 * k + j) else 0#8) ∧
    (s.memRead (BitVec.ofNat 20 (0x60 + 4 * k)) 4).rdata.extractLsb' (8 * j) 8 =
      (if 4 * k + j ≤ 24 ∧ s.status.rvalid = true then s.record.at (4 * k + j) else 0#8)

/-- R186: the interrupt.  A completion, faulting or not, asserts irq exactly when IE = 1; a write of 1 to STATUS bit 1, the
acceptance of a command and reset deassert it; setting IE while DONE = 1 asserts it at once, and clearing IE deasserts
it without clearing DONE. -/
def Obligations.InterruptLevel : Prop :=
  (∀ s t : State, s.status.busy = true → s.engineTurn = .next t → t.irq = s.ie ∧ t.status.done = true) ∧
  (∀ (s : State) (w : Word), w.getLsbD 1 = true → (s.memWrite 0x00008#20 4 w).irq = false) ∧
  (∀ (s : State) (w : Word), s.status.busy = false → (s.memWrite 0x00004#20 4 w).irq = false) ∧
  (∀ (s : State) (a : Option Access), (s.resetWith a).irq = false) ∧
  (∀ (s : State) (w : Word), (s.memWrite 0x0000C#20 4 w).irq = (s.status.done && w.getLsbD 0) ∧
    (s.memWrite 0x0000C#20 4 w).status.done = s.status.done)

/-! ## Completion, and what no command does -/

/-- R182, R183: every command completes: BUSY ← 0 and DONE ← 1, and either FCODE = OK with ERR and FIDX unchanged, or a fault
code with ERR = 1 (CLR, which writes ERR and FIDX itself, apart). -/
def Obligations.EveryCommandCompletes : Prop :=
  ∀ (i : Instr) (s : State), ∃ t, exec i s = .next t ∧ t.status.busy = false ∧ t.status.done = true ∧
    (i = .clr → t.status.fcode = .ok) ∧
    (i ≠ .clr → (t.status.fcode = .ok ∧ t.status.err = s.status.err ∧ t.fidx = s.fidx) ∨
      (t.status.fcode ≠ .ok ∧ t.status.err = true))

/-- R22, R24, R32, R33: what no command changes: CTRL.IE and the parameters; only LDI changes IBUF; only DEC and LDB change BBUF; only
CLR changes OVR and BERR.  The model's choices in it: PEND keeps the completed word (log entry 7), the port's read data stays
(log entry 8), and so do the schedule and the count of free values (log entries 1 and 4). -/
def Obligations.WhatNoCommandChanges : Prop :=
  ∀ (i : Instr) (s t : State), exec i s = .next t →
    t.ie = s.ie ∧ t.params = s.params ∧ t.pend = s.pend ∧ t.rdata = s.rdata ∧ t.draws = s.draws ∧ t.schedule = s.schedule ∧
    ((∀ v, i ≠ .ldi v) → t.ibuf = s.ibuf) ∧
    (i ≠ .dec → (∀ nb d, i ≠ .ldb nb d) → t.bbuf = s.bbuf) ∧
    (i ≠ .clr → t.status.ovr = s.status.ovr ∧ t.status.berr = s.status.berr)

/-- R181: the engine's step never depends on a value the host reads. -/
def Obligations.EngineIgnoresHostReads : Prop :=
  ∀ (s t : State) (w : Word) (d : Nat), s.engineTurn = .next t →
    State.engineTurn { s with rdata := w, draws := d } = .next { t with rdata := w, draws := d }

/-- R91, R210: a WAIT ends.  From any state, the turns of a WAIT run to their end, and its last read finds BUSY = 0. -/
def Obligations.WaitEnds : Prop :=
  ∀ (s : State) (polls : Nat) (rest : List Turn), s.schedule = waitTurns polls ++ rest →
    ∃ t, Sys2Proof.core.run (polls + 2) s = .next t ∧ t.status.busy = false ∧ t.schedule = rest ∧
      t.rdata.getLsbD 0 = false

/-! ## Control and loading -/

/-- R100: NOP completes and changes nothing else. -/
def Obligations.NopOnlyCompletes : Prop :=
  ∀ s : State, ∃ t, exec .nop s = .next t ∧ CompletedOk t ∧ OnlyChanges [.busy, .done, .fcode] s t

/-- R102: CLR clears the data state, and keeps CTRL.IE and the contents of IBUF and BBUF, which no window shows any more. -/
def Obligations.ClrClearsDataState : Prop :=
  ∀ s : State, ∃ t, exec .clr s = .next t ∧ CompletedOk t ∧ t.icnt = 0 ∧ t.bcnt = 0 ∧ t.base8 = 0#32 ∧ t.offset = 0 ∧
    t.fidx = 0 ∧ t.xsum = 0#8 ∧ (∀ j, j < 25 → t.sym.at j = 0#8 ∧ t.record.at j = 0#8) ∧
    t.readReg .status = 0x00000002#32 ∧ (∀ k, t.readReg (.bwin k) = 0#32 ∧ t.readReg (.iwin k) = 0#32) ∧
    OnlyChanges [.icnt, .bcnt, .base8, .offset, .fidx, .xsum, .sym, .record, .loc, .symv, .rvalid, .err, .ovr, .berr,
      .busy, .done, .fcode] s t

/-- R103: CLR and reset leave the same values in every element except CTRL.IE, STATUS.DONE and STATUS.FCODE (which both leave 0):
reset clears IE and DONE, CLR keeps IE and sets DONE, and every register but STATUS and CTRL reads the same after either.  The
entries of IBUF and BBUF, and PEND, are compared by no clause: R39 leaves them unspecified after reset. -/
def Obligations.ClrComparedWithReset : Prop :=
  ∀ s t : State, exec .clr s = .next t →
    OnlyChanges [.ibuf, .bbuf, .pend, .ie, .done, .rdata, .schedule, .draws] (s.resetWith none) t ∧
    (∀ r : Reg, r ≠ .status → r ≠ .ctrl → t.readReg r = (s.resetWith none).readReg r) ∧
    t.ie = s.ie ∧ (s.resetWith none).ie = false ∧
    t.status = { (s.resetWith none).status with done := true } ∧ (s.resetWith none).status.done = false ∧
    t.status.fcode = .ok

/-- R110: LDI with room in IBUF appends its interval at ICNT. -/
def Obligations.LdiAppends : Prop :=
  ∀ (v : Interval) (s : State), s.icnt ≠ s.params.nInt →
    ∃ t, exec (.ldi v) s = .next t ∧ CompletedOk t ∧ t.icnt = s.icnt + 1 ∧ t.ibuf.read s.icnt = v ∧
      (∀ k, k ≠ s.icnt → t.ibuf.read k = s.ibuf.read k) ∧ OnlyChanges [.ibuf, .icnt, .busy, .done, .fcode] s t

/-- R113: LDB with room for its NB bits appends BDATA[NB-1], …, BDATA[0] at BCNT and clears LOC, SYMV and RVALID. -/
def Obligations.LdbAppends : Prop :=
  ∀ (nb : BitVec 5) (d : BitVec 16) (s : State), (Instr.ldb nb d).WellFormed → s.bcnt + nb.toNat ≤ s.params.nBit →
    ∃ t, exec (.ldb nb d) s = .next t ∧ CompletedOk t ∧ t.bcnt = s.bcnt + nb.toNat ∧
      (∀ j, j < nb.toNat → t.bbuf.read (s.bcnt + j) = BitVec.ofBool (d.getLsbD (nb.toNat - 1 - j))) ∧
      (∀ k, ¬(s.bcnt ≤ k ∧ k < s.bcnt + nb.toNat) → t.bbuf.read k = s.bbuf.read k) ∧
      t.status.loc = false ∧ t.status.symv = false ∧ t.status.rvalid = false ∧
      OnlyChanges [.bbuf, .bcnt, .loc, .symv, .rvalid, .busy, .done, .fcode] s t

/-- R110, R113: LDI with IBUF full raises OVERFLOW with FIDX = ICNT, LDB without room for all its bits appends none and raises
OVERFLOW with FIDX = BCNT, and nothing else changes. -/
def Obligations.LoadsOverflow : Prop :=
  (∀ (v : Interval) (s : State), s.icnt = s.params.nInt →
    ∃ t, exec (.ldi v) s = .next t ∧ CompletedFault t .overflow s.icnt ∧
      OnlyChanges [.fidx, .fcode, .err, .busy, .done] s t) ∧
  (∀ (nb : BitVec 5) (d : BitVec 16) (s : State), (Instr.ldb nb d).WellFormed → s.bcnt + nb.toNat > s.params.nBit →
    ∃ t, exec (.ldb nb d) s = .next t ∧ CompletedFault t .overflow s.bcnt ∧
      OnlyChanges [.fidx, .fcode, .err, .busy, .done] s t)

/-- R114: LDB appends most significant bit first, so a symbol loaded with `LDB 8, v` and read back by EXT at the same position is
`v`. -/
def Obligations.LoadedSymbolReadsBack : Prop :=
  ∀ (v : Symbol) (s : State), s.bcnt + 8 ≤ s.params.nBit →
    ∃ t, exec (.ldb 8#5 (v.setWidth 16)) s = .next t ∧ sym8 t.bbuf s.bcnt = v ∧
      ∀ (u : State) (j : Nat), u.bbuf = t.bbuf → u.status.loc = true → j < 25 → u.offset + 8 * j = s.bcnt →
        ∃ x, exec .ext u = .next x ∧ x.sym.at j = v

/-- R89, R90: the assembler rejects every operand out of range and never truncates one (that `.word` takes 32 bits is log entry
18's), a pseudo-instruction assembles as the lines of its expansion, and executing the words of `LDBITS` appends the bits of
the string, in order. -/
def Obligations.AssemblerLoadsTheBits : Prop :=
  (∀ v : Nat, assemble (.ldi v) = if v < 2 ^ 28 then some [BitVec.ofNat 32 (0x20000000 + v)] else none) ∧
  (∀ nb d : Nat, assemble (.ldb nb d) =
    if 1 ≤ nb ∧ nb ≤ 16 ∧ d < 2 ^ nb then some [BitVec.ofNat 32 (0x30000000 + nb * 2 ^ 16 + d)] else none) ∧
  (∀ v : Nat, assemble (.ldbyte v) = if v ≤ 255 then some [BitVec.ofNat 32 (0x30080000 + v)] else none) ∧
  (∀ v k : Nat, assemble (.ldir v k) =
    if 1 ≤ k ∧ v < 2 ^ 28 then some (List.replicate k (BitVec.ofNat 32 (0x20000000 + v))) else none) ∧
  (∀ w : Nat, assemble (.word w) = if w < 2 ^ 32 then some [BitVec.ofNat 32 w] else none) ∧
  assemble (.ldbits []) = none ∧
  (∀ (bits : List Bit) (s : State), bits ≠ [] → s.bcnt + bits.length ≤ s.params.nBit →
    ∃ ws t, assemble (.ldbits bits) = some ws ∧ s.issueAll ws = .next t ∧ t.status.fcode = .ok ∧
      t.bcnt = s.bcnt + bits.length ∧ t.bitstream = s.bitstream ++ bits)

/-! ## The demodulator -/

/-- R122: DEC of fewer than 10 intervals does not decode: SHORT_INPUT with FIDX = ICNT, BCNT = 0 and BASE8 = 0. -/
def Obligations.DecShortInput : Prop :=
  ∀ s : State, s.icnt < 10 → ∃ t, exec .dec s = .next t ∧ CompletedFault t .shortInput s.icnt ∧ t.bcnt = 0 ∧ t.base8 = 0#32 ∧
    t.status.loc = false ∧ t.status.symv = false ∧ t.status.rvalid = false ∧
    OnlyChanges [.bcnt, .base8, .loc, .symv, .rvalid, .fidx, .fcode, .err, .busy, .done] s t

/-- R121, R124 to R127: where the steps of R124 from cursor 10 and the seed of R125 emit `bits` and leave baseline `b8`, DEC leaves
ten `0` bits and `bits` as the bitstream, BCNT its length, BASE8 exactly `b8`, and FIDX as it was. -/
def Obligations.DecDecodes : Prop :=
  ∀ (s : State) (bits : List Bit) (b8 : Nat), 10 ≤ s.icnt →
    Demodulates s.interval s.icnt 10 (seedOf s.interval) bits b8 →
    ∃ t, exec .dec s = .next t ∧ CompletedOk t ∧ t.bitstream = List.replicate 10 0#1 ++ bits ∧
      t.bcnt = 10 + bits.length ∧ t.base8.toNat = b8 ∧ t.status.loc = false ∧ t.status.symv = false ∧
      t.status.rvalid = false ∧ (∀ k, t.bcnt ≤ k → t.bbuf.read k = s.bbuf.read k) ∧
      OnlyChanges [.bbuf, .bcnt, .base8, .loc, .symv, .rvalid, .busy, .done, .fcode] s t

/-- R128: where the steps of R124 reach an interval in neither band, at index `j` with baseline `b8`, DEC raises DECODE with
FIDX = `j`, no bitstream is visible, BASE8 is exactly `b8`, and IBUF and ICNT are unchanged. -/
def Obligations.DecFaults : Prop :=
  ∀ (s : State) (j b8 : Nat), 10 ≤ s.icnt → FailsAt s.interval s.icnt 10 (seedOf s.interval) j b8 →
    ∃ t, exec .dec s = .next t ∧ CompletedFault t .decode j ∧ t.bcnt = 0 ∧ t.bitstream = [] ∧ t.base8.toNat = b8 ∧
      t.status.loc = false ∧ t.status.symv = false ∧ t.status.rvalid = false ∧
      OnlyChanges [.bcnt, .base8, .loc, .symv, .rvalid, .fidx, .fcode, .err, .busy, .done] s t

/-- R124, R130, R136: the steps of R124 always end, in one way only: a bitstream, or a DecodeFault. -/
def Obligations.DemodulationEndsOneWay : Prop :=
  ∀ (x : Nat → Nat) (n i b8 : Nat),
    ((∃ bits b8', Demodulates x n i b8 bits b8' ∧
        ∀ bits' c8, Demodulates x n i b8 bits' c8 → bits' = bits ∧ c8 = b8') ∧ ¬∃ j b8', FailsAt x n i b8 j b8') ∨
    ((∃ j b8', FailsAt x n i b8 j b8' ∧ ∀ j' c8, FailsAt x n i b8 j' c8 → j' = j ∧ c8 = b8') ∧
      ¬∃ bits b8', Demodulates x n i b8 bits b8')

/-- R129: the length of what a successful DEC leaves, and that it never overflows BBUF. -/
def Obligations.DecOutputLength : Prop :=
  (∀ s t : State, 10 ≤ s.icnt → exec .dec s = .next t → t.status.fcode = .ok →
    10 ≤ t.bcnt ∧ t.bcnt ≤ max 10 (s.icnt - 2) ∧
      (s.params.legal = true → s.icnt ≤ s.params.nInt → t.bcnt ≤ s.params.nInt ∧ t.bcnt ≤ s.params.nBit)) ∧
  (∀ s : State, 10 ≤ s.icnt → s.icnt ≤ 12 → ∃ t, exec .dec s = .next t ∧ t.status.fcode = .ok ∧ t.bcnt = 10)

/-- R131: IBUF[0], IBUF[9] and IBUF[n-1] never influence the outcome: with any other values there, DEC leaves the same state. -/
def Obligations.DecIgnoresEdgeIntervals : Prop :=
  ∀ (s t : State) (b : Buffer 28), 10 ≤ s.icnt →
    (∀ k, k < s.icnt → k ≠ 0 → k ≠ 9 → k ≠ s.icnt - 1 → b.read k = s.ibuf.read k) →
    exec .dec s = .next t → exec .dec { s with ibuf := b } = .next { t with ibuf := b }

/-- R135: DEC's outcome is a function of IBUF[0..ICNT-1] alone, and a second DEC gives the same outcome. -/
def Obligations.DecIsDeterminedByItsIntervals : Prop :=
  (∀ s s' t t' : State, s'.icnt = s.icnt → (∀ k, k < s.icnt → s'.ibuf.read k = s.ibuf.read k) →
    exec .dec s = .next t → exec .dec s' = .next t' →
      t'.bcnt = t.bcnt ∧ t'.bitstream = t.bitstream ∧ t'.base8 = t.base8 ∧ t'.status.fcode = t.status.fcode ∧
        (t.status.fcode ≠ .ok → t'.fidx = t.fidx)) ∧
  (∀ s t u : State, exec .dec s = .next t → exec .dec t = .next u →
    t.icnt = s.icnt ∧ t.ibuf = s.ibuf ∧ u.bcnt = t.bcnt ∧ u.bitstream = t.bitstream ∧ u.base8 = t.base8 ∧
      u.status.fcode = t.status.fcode ∧ u.fidx = t.fidx)

/-- R134: the ends of the bands, at any baseline `b8 / 8`, an integer or not: exactly 3/4 or 5/4 of it is a `0`, above 5/4 fails,
and below 3/4 with a next interval of exactly 1/4 fails. -/
def Obligations.BandEdges : Prop :=
  ∀ b8 c nx : Nat, (32 * c = 3 * b8 → classify c nx b8 = .zero) ∧ (32 * c = 5 * b8 → classify c nx b8 = .zero) ∧
    (5 * b8 < 32 * c → classify c nx b8 = .unclassified) ∧
    (32 * c < 3 * b8 → 32 * nx = b8 → classify c nx b8 = .unclassified)

/-- R112: the unit of the intervals does not matter: every interval times `m` gives the same bits and the same fault, and a BASE8
times `m`. -/
def Obligations.DecIsIndependentOfTheUnit : Prop :=
  ∀ (s s' t t' : State) (m : Nat), 0 < m → s'.icnt = s.icnt → (∀ k, k < s.icnt → s'.interval k = m * s.interval k) →
    exec .dec s = .next t → exec .dec s' = .next t' →
      t'.bitstream = t.bitstream ∧ t'.bcnt = t.bcnt ∧ t'.status.fcode = t.status.fcode ∧
        (t.status.fcode ≠ .ok → t'.fidx = t.fidx) ∧ t'.base8.toNat = m * t.base8.toNat

/-- R121, R132: DEC decodes what was encoded.  Any bitstream, written as biphase cells of one even length behind a warm-up window of ten
such cells and before two trailing intervals of any length, comes out as ten `0` bits and that bitstream. -/
def Obligations.DecDecodesBiphaseCells : Prop :=
  ∀ (s : State) (h : Nat) (bits : List Bit) (tail : List Nat), 0 < h → tail.length = 2 →
    s.icnt = 10 + (cellsOf h bits).length + 2 →
    (∀ k, k < s.icnt → some (s.interval k) = (List.replicate 10 (2 * h) ++ cellsOf h bits ++ tail)[k]?) →
    ∃ t, exec .dec s = .next t ∧ CompletedOk t ∧ t.bitstream = List.replicate 10 0#1 ++ bits ∧ t.base8.toNat = 16 * h

/-! ## The locator and extractor -/

/-- R144: the three outcomes of FND, and what each leaves. -/
def Obligations.FndOutcomes : Prop :=
  ∀ s : State,
    (NoSentinel s.bbuf s.bcnt → ∃ t, exec .fnd s = .next t ∧ CompletedFault t .noSentinel s.bcnt ∧ t.offset = 0 ∧
      t.status.loc = false ∧ t.status.symv = false ∧ t.status.rvalid = false ∧
      OnlyChanges [.offset, .loc, .symv, .rvalid, .fidx, .fcode, .err, .busy, .done] s t) ∧
    (∀ p, FirstSentinelAt s.bbuf s.bcnt p → s.bcnt - p < 200 →
      ∃ t, exec .fnd s = .next t ∧ CompletedFault t .shortWindow (s.bcnt - p) ∧ t.offset = p ∧
        t.status.loc = false ∧ t.status.symv = false ∧ t.status.rvalid = false ∧
        OnlyChanges [.offset, .loc, .symv, .rvalid, .fidx, .fcode, .err, .busy, .done] s t) ∧
    (∀ p, FirstSentinelAt s.bbuf s.bcnt p → 200 ≤ s.bcnt - p →
      ∃ t, exec .fnd s = .next t ∧ CompletedOk t ∧ t.offset = p ∧ t.status.loc = true ∧ t.status.symv = false ∧
        t.status.rvalid = false ∧ OnlyChanges [.offset, .loc, .symv, .rvalid, .busy, .done, .fcode] s t)

/-- R142: a run of `k ≥ 7` ones followed by a zero holds exactly one occurrence of the sentinel, at the start of its last 7
ones. -/
def Obligations.SentinelInARunOfOnes : Prop :=
  ∀ (b : Buffer 1) (a k : Nat), 7 ≤ k → (∀ j, j < k → b.read (a + j) = 1#1) → b.read (a + k) = 0#1 →
    ∀ q, a ≤ q → q + 7 ≤ a + k → (sentinelAt b q = true ↔ q = a + k - 7)

/-- R145: EXT with LOC = 1 slices the 25 symbols of the window, bit 7 first, sets SYMV and clears RVALID; with LOC = 0 it raises
SEQUENCE and changes nothing else. -/
def Obligations.ExtSlicesTheWindow : Prop :=
  ∀ s : State,
    (s.status.loc = true → ∃ t, exec .ext s = .next t ∧ CompletedOk t ∧
      (∀ j k, j < 25 → k < 8 → (t.sym.at j).getLsbD (7 - k) = (s.bbuf.read (s.offset + 8 * j + k)).getLsbD 0) ∧
      t.status.symv = true ∧ t.status.rvalid = false ∧ OnlyChanges [.sym, .symv, .rvalid, .busy, .done, .fcode] s t) ∧
    (s.status.loc = false → ∃ t, exec .ext s = .next t ∧ CompletedFault t .sequence 0 ∧
      OnlyChanges [.fidx, .fcode, .err, .busy, .done] s t)

/-- R146: when LOC = 1 the whole window lies in BBUF's valid bits, and after EXT symbol 0 is 0xFE. -/
def Obligations.ExtReadsInRange : Prop :=
  ∀ s : State, Consistent s → s.status.loc = true →
    s.offset + 199 < s.bcnt ∧ ∃ t, exec .ext s = .next t ∧ t.sym.at 0 = 0xFE#8

/-- R147: EXT is repeatable: it changes neither BBUF nor OFFSET, a second EXT writes the same SYM and leaves SYMV = 1, and the
record is hidden until a CHK succeeds again. -/
def Obligations.ExtIsRepeatable : Prop :=
  ∀ s t : State, s.status.loc = true → exec .ext s = .next t →
    t.bbuf = s.bbuf ∧ t.offset = s.offset ∧
    ∃ u, exec .ext t = .next u ∧ u.sym = t.sym ∧ u.status.symv = true ∧ u.status.rvalid = false ∧
      ∀ k, u.readReg (.recw k) = 0#32

/-! ## The validator -/

/-- R160 to R165: the outcomes of CHK in the order of its checks, and what each leaves. -/
def Obligations.ChkOutcomes : Prop :=
  ∀ s : State,
    (s.status.symv = false → ∃ t, exec .chk s = .next t ∧ CompletedFault t .sequence 0 ∧
      OnlyChanges [.fidx, .fcode, .err, .busy, .done] s t) ∧
    (s.status.symv = true → s.sym.at 0 ≠ rev8 (s.sym.at 24) →
      ∃ t, exec .chk s = .next t ∧ CompletedFault t .mirror0 0 ∧ t.status.rvalid = false ∧
        OnlyChanges [.rvalid, .fidx, .fcode, .err, .busy, .done] s t) ∧
    (∀ i, s.status.symv = true → s.sym.at 0 = rev8 (s.sym.at 24) → 1 ≤ i → i ≤ 12 → s.sym.at i ≠ s.sym.at (24 - i) →
      (∀ k, 1 ≤ k → k < i → s.sym.at k = s.sym.at (24 - k)) →
      ∃ t, exec .chk s = .next t ∧ CompletedFault t .mirror i ∧ t.status.rvalid = false ∧
        OnlyChanges [.rvalid, .fidx, .fcode, .err, .busy, .done] s t) ∧
    (s.status.symv = true → s.sym.at 0 = rev8 (s.sym.at 24) →
      (∀ k, 1 ≤ k → k ≤ 12 → s.sym.at k = s.sym.at (24 - k)) → checksum s.sym ≠ s.sym.at 13 →
      ∃ t, exec .chk s = .next t ∧ CompletedFault t .checksum 13 ∧ t.xsum = checksum s.sym ∧ t.status.rvalid = false ∧
        OnlyChanges [.xsum, .rvalid, .fidx, .fcode, .err, .busy, .done] s t) ∧
    (s.status.symv = true → ChecksPass s.sym →
      ∃ t, exec .chk s = .next t ∧ CompletedOk t ∧ t.xsum = checksum s.sym ∧
        (∀ j, j < 25 → t.record.at j = s.sym.at j ^^^ 0xFF#8) ∧ t.status.rvalid = true ∧
        OnlyChanges [.xsum, .record, .rvalid, .busy, .done, .fcode] s t)

/-- R171: CHK is repeatable: with SYMV = 1 a second CHK gives the same outcome. -/
def Obligations.ChkIsRepeatable : Prop :=
  ∀ s t : State, s.status.symv = true → exec .chk s = .next t →
    t.sym = s.sym ∧ ∃ u, exec .chk t = .next u ∧ u.status.fcode = t.status.fcode ∧ u.fidx = t.fidx ∧ u.xsum = t.xsum ∧
      u.record = t.record ∧ u.status.rvalid = t.status.rvalid

/-- R163: the checksum is the XOR of symbols 1 to 10 seeded with 0xFF, whatever the order they are folded in. -/
def Obligations.ChecksumInAnyOrder : Prop :=
  ∀ (v : Symbols) (order : List Nat), order.Perm [1, 2, 3, 4, 5, 6, 7, 8, 9, 10] →
    checksum v = order.foldl (fun x i => x ^^^ v.at i) 0xFF#8

/-- R166: VAL is FND, EXT and CHK in one command: where FND faults VAL leaves what FND leaves, else it leaves what CHK leaves
after FND and EXT. -/
def Obligations.ValRunsTheThreeCommands : Prop :=
  ∀ s t : State, exec .fnd s = .next t →
    (t.status.fcode ≠ .ok → exec .val s = .next t) ∧
    (t.status.fcode = .ok → ∃ u, exec .ext t = .next u ∧ u.status.fcode = .ok ∧ exec .val s = exec .chk u)

/-- R167: the outcomes of VAL by the first step that fails, on the window of BBUF; SEQUENCE is none of them (R166). -/
def Obligations.ValOutcomes : Prop :=
  ∀ s : State,
    (∀ t, exec .val s = .next t → t.status.fcode ≠ .sequence) ∧
    (NoSentinel s.bbuf s.bcnt → ∃ t, exec .val s = .next t ∧ CompletedFault t .noSentinel s.bcnt ∧ t.offset = 0 ∧
      t.status.loc = false ∧ t.status.symv = false ∧ t.status.rvalid = false) ∧
    (∀ p, FirstSentinelAt s.bbuf s.bcnt p → s.bcnt - p < 200 →
      ∃ t, exec .val s = .next t ∧ CompletedFault t .shortWindow (s.bcnt - t.offset) ∧ t.offset = p ∧
        t.status.loc = false ∧ t.status.symv = false ∧ t.status.rvalid = false) ∧
    (∀ (p : Nat) (v : Symbols), FirstSentinelAt s.bbuf s.bcnt p → 200 ≤ s.bcnt - p → v = sliceWindow s.bbuf p →
      (v.at 0 ≠ rev8 (v.at 24) →
        ∃ t, exec .val s = .next t ∧ CompletedFault t .mirror0 0 ∧ WindowTaken s t p ∧ t.status.rvalid = false) ∧
      (∀ i, v.at 0 = rev8 (v.at 24) → 1 ≤ i → i ≤ 12 → v.at i ≠ v.at (24 - i) →
        (∀ k, 1 ≤ k → k < i → v.at k = v.at (24 - k)) →
        ∃ t, exec .val s = .next t ∧ CompletedFault t .mirror i ∧ WindowTaken s t p ∧ t.status.rvalid = false) ∧
      (v.at 0 = rev8 (v.at 24) → (∀ k, 1 ≤ k → k ≤ 12 → v.at k = v.at (24 - k)) → checksum v ≠ v.at 13 →
        ∃ t, exec .val s = .next t ∧ CompletedFault t .checksum 13 ∧ WindowTaken s t p ∧ t.status.rvalid = false ∧
          t.xsum = checksum v) ∧
      (ChecksPass v →
        ∃ t, exec .val s = .next t ∧ CompletedOk t ∧ WindowTaken s t p ∧ t.status.rvalid = true ∧ t.fidx = s.fidx ∧
          t.xsum = checksum v ∧ ∀ j, j < 25 → t.record.at j = inv8 (v.at j)))

/-- R160, R166, R183: what VAL leaves unchanged. -/
def Obligations.ValFrame : Prop :=
  ∀ s : State, ∃ t, exec .val s = .next t ∧
    OnlyChanges [.offset, .sym, .record, .xsum, .fidx, .loc, .symv, .rvalid, .err, .fcode, .busy, .done] s t ∧
    (t.status.rvalid = false → t.record = s.record) ∧
    (t.status.fcode ∈ [.noSentinel, .shortWindow, .mirror0, .mirror] → t.xsum = s.xsum) ∧
    (t.status.fcode ∈ [.noSentinel, .shortWindow] → t.sym = s.sym)

/-- R168: one flipped bit in a window that passes every check, anywhere in symbols 1 to 24, is detected, except in symbol 12,
where it is accepted and shows in REC[12]. -/
def Obligations.SingleBitFlips : Prop :=
  ∀ (s : State) (p m : Nat), FirstSentinelAt s.bbuf s.bcnt p → 200 ≤ s.bcnt - p → WindowPasses s.bbuf p →
    8 ≤ m → m ≤ 199 →
    ∃ t, exec .val { s with bbuf := s.bbuf.write (p + m) (s.bbuf.read (p + m) ^^^ 1#1) } = .next t ∧ t.offset = p ∧
      (1 ≤ m / 8 → m / 8 ≤ 11 → CompletedFault t .mirror (m / 8) ∧ t.status.rvalid = false) ∧
      (m / 8 = 13 → CompletedFault t .mirror 11 ∧ t.status.rvalid = false) ∧
      (14 ≤ m / 8 → m / 8 ≤ 23 → CompletedFault t .mirror (24 - m / 8) ∧ t.status.rvalid = false) ∧
      (m / 8 = 24 → CompletedFault t .mirror0 0 ∧ t.status.rvalid = false) ∧
      (m / 8 = 12 → CompletedOk t ∧ t.status.rvalid = true ∧
        t.record.at 12 = inv8 (sym8 s.bbuf (p + 96)) ^^^ (0x80#8 >>> (m % 8)) ∧
        ∀ j, j < 25 → j ≠ 12 → t.record.at j = inv8 (sym8 s.bbuf (p + 8 * j)))
end

