-- ==== Sys2Proof/Laws/Buffer.lean ====
section
/-! SUPPORT. The laws of the block's arrays: what a read finds after a write, and that every write keeps the canonical form. -/

namespace Sys2Proof.Machine

variable {w : Nat}

@[simp] theorem Buffer.read_nil (k : Nat) : Buffer.read ([] : Buffer w) k = 0#w := rfl

theorem Buffer.read_cons (j : Nat) (v : BitVec w) (b : Buffer w) (k : Nat) :
    Buffer.read ((j, v) :: b) k = if j = k then v else b.read k := rfl

theorem Buffer.read_clearAt (b : Buffer w) (k j : Nat) : (b.clearAt k).read j = if j = k then 0#w else b.read j := by
  induction b with
  | nil => simp [clearAt]
  | cons c rest ih =>
    obtain ⟨i, v⟩ := c
    simp only [clearAt] at ih ⊢
    by_cases hi : i = k
    · subst hi
      simp only [List.filter_cons, bne_self_eq_false, Bool.false_eq_true, ite_false, ih, read_cons]
      grind
    · simp only [List.filter_cons, bne_iff_ne, ne_eq, hi, not_false_eq_true, ite_true, ih, read_cons]
      grind

theorem Buffer.read_place (b : Buffer w) (k j : Nat) (v : BitVec w)
    (hfree : ∀ c ∈ b, c.1 ≠ k) : (b.place k v).read j = if j = k then v else b.read j := by
  induction b with
  | nil => simp only [place, read_cons, read_nil]; grind
  | cons c rest ih =>
    obtain ⟨i, u⟩ := c
    have hi : i ≠ k := hfree (i, u) (by simp)
    have hrest : ∀ c ∈ rest, c.1 ≠ k := fun c hc => hfree c (by simp [hc])
    have := ih hrest
    simp only [place]
    split <;> simp only [read_cons, this] <;> grind

theorem Buffer.mem_clearAt (b : Buffer w) (k : Nat) (c : Nat × BitVec w) : c ∈ b.clearAt k ↔ c ∈ b ∧ c.1 ≠ k := by
  simp [clearAt]

/-- A read after a write: the value written at its index, everything else as before. -/
theorem Buffer.read_write (b : Buffer w) (k j : Nat) (v : BitVec w) :
    (b.write k v).read j = if j = k then v else b.read j := by
  have hfree : ∀ c ∈ b.clearAt k, c.1 ≠ k := fun c hc => ((mem_clearAt b k c).1 hc).2
  unfold write
  split
  · next h => rw [read_clearAt, h]
  · rw [read_place _ _ _ _ hfree, read_clearAt]; grind

@[simp] theorem Buffer.read_write_same (b : Buffer w) (k : Nat) (v : BitVec w) : (b.write k v).read k = v := by
  simp [read_write]

theorem Buffer.read_write_other (b : Buffer w) {k j : Nat} (v : BitVec w) (h : j ≠ k) :
    (b.write k v).read j = b.read j := by simp [read_write, h]

/-- A read after a run of writes from index `k`. -/
theorem Buffer.read_writeList (vs : List (BitVec w)) (b : Buffer w) (k j : Nat) :
    (b.writeList k vs).read j = if k ≤ j then (vs[j - k]?).getD (b.read j) else b.read j := by
  induction vs generalizing b k with
  | nil => simp [writeList]
  | cons v vs ih =>
    rw [writeList, ih, read_write]
    by_cases h1 : k + 1 ≤ j
    · have h2 : j - k = (j - (k + 1)) + 1 := by omega
      have h3 : j ≠ k := by omega
      have h4 : k ≤ j := by omega
      simp [h1, h2, h3, h4]
    · by_cases h2 : j = k
      · subst h2; simp [h1]
      · have h4 : ¬ k ≤ j := by omega
        simp [h1, h2, h4]

theorem Buffer.read_writeList_below (vs : List (BitVec w)) (b : Buffer w) {k j : Nat} (h : j < k) :
    (b.writeList k vs).read j = b.read j := by
  rw [read_writeList, if_neg (by omega)]

theorem Buffer.read_writeList_within (vs : List (BitVec w)) (b : Buffer w) {k j : Nat} (h : j < vs.length) :
    (b.writeList k vs).read (k + j) = vs[j] := by
  rw [read_writeList, if_pos (by omega)]; simp [h]

theorem Buffer.read_writeList_above (vs : List (BitVec w)) (b : Buffer w) {k j : Nat} (h : k + vs.length ≤ j) :
    (b.writeList k vs).read j = b.read j := by
  rw [read_writeList]
  have : vs.length ≤ j - k := by omega
  simp [this]

@[simp] theorem Buffer.length_slice (b : Buffer w) (p n : Nat) : (b.slice p n).length = n := by simp [slice]

@[simp] theorem Buffer.getElem_slice (b : Buffer w) (p n j : Nat) (h : j < (b.slice p n).length) :
    (b.slice p n)[j] = b.read (p + j) := by simp [slice]

theorem Buffer.slice_append (b : Buffer w) (p m n : Nat) : b.slice p (m + n) = b.slice p m ++ b.slice (p + m) n := by
  simp [slice, List.range_add, Nat.add_assoc, Function.comp_def]

/-- What was written from `k` on is what a slice from `k` on reads. -/
theorem Buffer.slice_writeList (b : Buffer w) (k : Nat) (vs : List (BitVec w)) :
    (b.writeList k vs).slice k vs.length = vs := by
  apply List.ext_getElem (by simp)
  intro j h1 h2
  rw [getElem_slice, read_writeList_within vs b h2]

/-- A slice of what stands below the writes is as before. -/
theorem Buffer.slice_writeList_below (b : Buffer w) (k : Nat) (vs : List (BitVec w)) {p n : Nat} (h : p + n ≤ k) :
    (b.writeList k vs).slice p n = b.slice p n := by
  apply List.ext_getElem (by simp)
  intro j h1 h2
  have hj : j < n := by simpa using h1
  rw [getElem_slice, getElem_slice, read_writeList_below vs b (by omega)]

/-- Slices agree where reads do. -/
theorem Buffer.slice_congr {a b : Buffer w} {p n : Nat} (h : ∀ k, k < n → a.read (p + k) = b.read (p + k)) :
    a.slice p n = b.slice p n := by
  apply List.ext_getElem (by simp)
  intro j h1 h2
  rw [getElem_slice, getElem_slice, h j (by simpa using h1)]

theorem Buffer.wf_cons (d j : Nat) (v : BitVec w) (b : Buffer w) :
    Buffer.wf d ((j, v) :: b) = true ↔ j < d ∧ v ≠ 0#w ∧ (∀ c ∈ b, j < c.1) ∧ b.wf d = true := by
  simp [wf, and_assoc]

@[simp] theorem Buffer.wf_nil (d : Nat) : Buffer.wf d ([] : Buffer w) = true := rfl

theorem Buffer.wf_clearAt {b : Buffer w} {d : Nat} (h : b.wf d = true) (k : Nat) : (b.clearAt k).wf d = true := by
  induction b with
  | nil => exact h
  | cons c rest ih =>
    obtain ⟨i, u⟩ := c
    rw [wf_cons] at h
    obtain ⟨h1, h2, h3, h4⟩ := h
    have := ih h4
    simp only [clearAt, List.filter_cons] at this ⊢
    split
    · exact (wf_cons ..).2 ⟨h1, h2, fun c hc => h3 c (List.mem_filter.1 hc).1, this⟩
    · exact this

theorem Buffer.mem_place (b : Buffer w) (k : Nat) (v : BitVec w) (c : Nat × BitVec w) :
    c ∈ b.place k v ↔ c = (k, v) ∨ c ∈ b := by
  induction b with
  | nil => simp [place]
  | cons e rest ih => simp only [place]; split <;> simp only [List.mem_cons, ih] <;> grind

theorem Buffer.wf_place {b : Buffer w} {d k : Nat} {v : BitVec w} (h : b.wf d = true) (hk : k < d) (hv : v ≠ 0#w)
    (hfree : ∀ c ∈ b, c.1 ≠ k) : (b.place k v).wf d = true := by
  induction b with
  | nil => exact (wf_cons ..).2 ⟨hk, hv, by simp, h⟩
  | cons c rest ih =>
    obtain ⟨i, u⟩ := c
    have hw := h
    rw [wf_cons] at h
    obtain ⟨h1, h2, h3, h4⟩ := h
    have hi : i ≠ k := hfree (i, u) (by simp)
    simp only [place]
    split
    · next hlt =>
      refine (wf_cons ..).2 ⟨hk, hv, ?_, hw⟩
      intro c hc
      rcases List.mem_cons.1 hc with rfl | hc
      · exact hlt
      · exact Nat.lt_trans hlt (h3 c hc)
    · refine (wf_cons ..).2 ⟨h1, h2, ?_, ih h4 fun c hc => hfree c (by simp [hc])⟩
      intro c hc
      rcases (mem_place ..).1 hc with rfl | hc
      · show i < k; omega
      · exact h3 c hc

/-- A write inside the array keeps its canonical form. -/
theorem Buffer.wf_write {b : Buffer w} {d : Nat} (h : b.wf d = true) {k : Nat} (hk : k < d) (v : BitVec w) :
    (b.write k v).wf d = true := by
  unfold write
  split
  · exact wf_clearAt h k
  · next hv => exact wf_place (wf_clearAt h k) hk hv fun c hc => ((mem_clearAt b k c).1 hc).2

/-- A run of writes inside the array keeps its canonical form. -/
theorem Buffer.wf_writeList (vs : List (BitVec w)) {b : Buffer w} {d : Nat} (h : b.wf d = true) {k : Nat}
    (hk : k + vs.length ≤ d) : (b.writeList k vs).wf d = true := by
  induction vs generalizing b k with
  | nil => exact h
  | cons v vs ih =>
    simp only [List.length_cons] at hk
    exact ih (wf_write h (by omega) v) (by omega)

/-- In canonical form, an index below every listed one holds 0. -/
theorem Buffer.read_below {b : Buffer w} {k : Nat} (h : ∀ c ∈ b, k < c.1) : b.read k = 0#w := by
  induction b with
  | nil => rfl
  | cons c rest ih =>
    obtain ⟨i, u⟩ := c
    have : k < i := h (i, u) (by simp)
    rw [read_cons, if_neg (by omega), ih fun c hc => h c (by simp [hc])]

/-- The canonical form is canonical: two arrays that read the same everywhere are equal data. -/
theorem Buffer.ext_of_wf {a b : Buffer w} {d : Nat} (ha : a.wf d = true) (hb : b.wf d = true) (h : ∀ k, a.read k = b.read k) : a = b := by
  induction a generalizing b with
  | nil =>
    cases b with
    | nil => rfl
    | cons c rest =>
      obtain ⟨i, u⟩ := c
      have := h i
      simp [read_cons] at this
      exact absurd this.symm ((wf_cons ..).1 hb).2.1
  | cons c rest ih =>
    obtain ⟨i, u⟩ := c
    obtain ⟨-, hu, hlt, hrest⟩ := (wf_cons ..).1 ha
    cases b with
    | nil =>
      have := h i
      simp [read_cons] at this
      exact absurd this hu
    | cons e rest' =>
      obtain ⟨j, v⟩ := e
      obtain ⟨-, hv, hlt', hrest'⟩ := (wf_cons ..).1 hb
      have hij : i = j := by
        rcases Nat.lt_trichotomy i j with hh | hh | hh
        · have := h i
          rw [read_cons, if_pos rfl, read_cons, if_neg (by omega), read_below fun c hc => by have := hlt' c hc; omega] at this
          exact absurd this hu
        · exact hh
        · have := h j
          rw [read_cons, if_neg (by omega), read_cons, if_pos rfl, read_below fun c hc => by have := hlt c hc; omega] at this
          exact absurd this.symm hv
      subst hij
      have huv : u = v := by simpa [read_cons] using h i
      subst huv
      congr 1
      refine ih hrest hrest' fun k => ?_
      by_cases hk : i = k
      · subst hk; rw [read_below hlt, read_below hlt']
      · simpa [read_cons, hk] using h k

end Sys2Proof.Machine
end

