-- ==== Sys2Proof/Laws/Demodulator.lean ====
section
/-! SUPPORT. What one step of the demodulator does, and what its loop can do as a whole (spec/42_demodulator.md R124, R129,
R130). -/

namespace Sys2Proof.Machine

/-- The two bands never hold together (R124). -/
theorem isOne_not_isZero {c nx b8 : Nat} (h : IsOne c nx b8) : ¬ IsZero c b8 := by
  intro hz; have := h.short; have := hz.low; omega

/-- What the classification answers, by the integer conditions of R120. -/
theorem classify_spec (c nx b8 : Nat) :
    (classify c nx b8 = .one ∧ IsOne c nx b8) ∨ (classify c nx b8 = .zero ∧ ¬ IsOne c nx b8 ∧ IsZero c b8) ∨
      (classify c nx b8 = .unclassified ∧ ¬ IsOne c nx b8 ∧ ¬ IsZero c b8) := by
  have h1 : IsOne c nx b8 ↔ 32 * c < 3 * b8 ∧ 32 * nx > 1 * b8 := by
    constructor
    · rintro ⟨h, h'⟩; exact ⟨h, by omega⟩
    · rintro ⟨h, h'⟩; exact ⟨h, by omega⟩
  have h0 : IsZero c b8 ↔ 3 * b8 ≤ 32 * c ∧ 32 * c ≤ 5 * b8 := ⟨fun ⟨h, h'⟩ => ⟨h, h'⟩, fun ⟨h, h'⟩ => ⟨h, h'⟩⟩
  rw [h1, h0, classify]
  grind

theorem classify_of_isOne {c nx b8 : Nat} (h : IsOne c nx b8) : classify c nx b8 = .one := by
  rcases classify_spec c nx b8 with h' | h' | h'
  · exact h'.1
  · exact absurd h h'.2.1
  · exact absurd h h'.2.1

theorem classify_of_isZero {c nx b8 : Nat} (h : IsZero c b8) : classify c nx b8 = .zero := by
  rcases classify_spec c nx b8 with h' | h' | h'
  · exact absurd h (isOne_not_isZero h'.2)
  · exact h'.1
  · exact absurd h h'.2.2

theorem classify_of_neither {c nx b8 : Nat} (h1 : ¬ IsOne c nx b8) (h0 : ¬ IsZero c b8) :
    classify c nx b8 = .unclassified := by
  rcases classify_spec c nx b8 with h' | h' | h'
  · exact absurd h'.2 h1
  · exact absurd h'.2.2 h0
  · exact h'.1

@[simp] theorem Demod.emit_decoded (b : Bit) (bits : List Bit) (b8 : Nat) :
    (Demod.decoded bits b8).emit b = .decoded (b :: bits) b8 := rfl

@[simp] theorem Demod.emit_failed (b : Bit) (i b8 : Nat) : (Demod.failed i b8).emit b = .failed i b8 := rfl

theorem Demod.emit_eq_decoded {d : Demod} {b : Bit} {out : List Bit} {b8 : Nat} :
    d.emit b = .decoded out b8 ↔ ∃ bits, d = .decoded bits b8 ∧ out = b :: bits := by
  cases d with
  | failed j b => simp
  | decoded bits b =>
    simp only [emit_decoded, Demod.decoded.injEq]
    exact ⟨fun ⟨h1, h2⟩ => ⟨bits, ⟨rfl, h2⟩, h1.symm⟩, fun ⟨_, ⟨h1, h2⟩, h3⟩ => ⟨by rw [h1, h3], h2⟩⟩

theorem Demod.emit_eq_failed {d : Demod} {b : Bit} {i b8 : Nat} : d.emit b = .failed i b8 ↔ d = .failed i b8 := by
  cases d <;> simp [emit]

/-- One round of the loop. -/
theorem demodLoop_succ (x : Nat → Nat) (n fuel i b8 : Nat) :
    demodLoop x n (fuel + 1) i b8 =
      if i < n - 2 then
        match classify (x i) (x (i + 1)) b8 with
        | .one => (demodLoop x n fuel (i + 2) (8 * (x i + x (i + 1)))).emit 1#1
        | .zero => (demodLoop x n fuel (i + 1) (8 * x i)).emit 0#1
        | .unclassified => .failed i b8
      else .decoded [] b8 := rfl

/-- The loop has ended where its condition fails, however much fuel there is. -/
theorem demodLoop_stop (x : Nat → Nat) {n i : Nat} (fuel b8 : Nat) (h : ¬ i < n - 2) :
    demodLoop x n fuel i b8 = .decoded [] b8 := by
  cases fuel with
  | zero => rfl
  | succ fuel => rw [demodLoop_succ, if_neg h]

/-- With fuel for every interval left, more fuel changes nothing. -/
theorem demodLoop_fuel (x : Nat → Nat) (n : Nat) : ∀ (fuel fuel' i b8 : Nat), n - 2 - i ≤ fuel → n - 2 - i ≤ fuel' →
    demodLoop x n fuel i b8 = demodLoop x n fuel' i b8 := by
  intro fuel
  induction fuel with
  | zero =>
    intro fuel' i b8 h h'
    rw [demodLoop_stop x fuel' b8 (by omega : ¬ i < n - 2)]; rfl
  | succ fuel ih =>
    intro fuel' i b8 h h'
    by_cases hi : i < n - 2
    · obtain ⟨m, rfl⟩ : ∃ m, fuel' = m + 1 := ⟨fuel' - 1, by omega⟩
      rw [demodLoop_succ, demodLoop_succ, ih m (i + 2) _ (by omega) (by omega), ih m (i + 1) _ (by omega) (by omega)]
    · rw [demodLoop_stop x _ b8 hi, demodLoop_stop x _ b8 hi]

/-- The loop looks at the intervals from its cursor to `n - 2`, and at no other. -/
theorem demodLoop_congr {x y : Nat → Nat} {n : Nat} : ∀ (fuel i b8 : Nat),
    (∀ k, i ≤ k → k ≤ n - 2 → x k = y k) → demodLoop x n fuel i b8 = demodLoop y n fuel i b8 := by
  intro fuel
  induction fuel with
  | zero => intro i b8 _; rfl
  | succ fuel ih =>
    intro i b8 h
    by_cases hi : i < n - 2
    · rw [demodLoop_succ, demodLoop_succ, h i (by omega) (by omega), h (i + 1) (by omega) (by omega),
        ih (i + 2) _ fun k h1 h2 => h k (by omega) h2, ih (i + 1) _ fun k h1 h2 => h k (by omega) h2]
    · rw [demodLoop_stop x _ b8 hi, demodLoop_stop y _ b8 hi]

/-- The loop emits at most one bit for each index from its cursor to `n - 3` (R129). -/
theorem demodLoop_length {x : Nat → Nat} {n : Nat} : ∀ (fuel i b8 : Nat) {bits : List Bit} {b8' : Nat},
    demodLoop x n fuel i b8 = .decoded bits b8' → bits.length ≤ n - 2 - i := by
  intro fuel
  induction fuel with
  | zero => intro i b8 bits b8' h; cases h; simp
  | succ fuel ih =>
    intro i b8 bits b8' h
    rw [demodLoop_succ] at h
    split at h
    · split at h
      · obtain ⟨rest, h', rfl⟩ := Demod.emit_eq_decoded.1 h
        have := ih _ _ h'; simp; omega
      · obtain ⟨rest, h', rfl⟩ := Demod.emit_eq_decoded.1 h
        have := ih _ _ h'; simp; omega
      · cases h
    · cases h; simp

/-- A DecodeFault is at an index the loop classifies (R128, R130). -/
theorem demodLoop_failed_lt {x : Nat → Nat} {n : Nat} : ∀ (fuel i b8 : Nat) {j b8' : Nat},
    demodLoop x n fuel i b8 = .failed j b8' → i ≤ j ∧ j < n - 2 := by
  intro fuel
  induction fuel with
  | zero => intro i b8 j b8' h; cases h
  | succ fuel ih =>
    intro i b8 j b8' h
    rw [demodLoop_succ] at h
    split at h
    · split at h
      · have := ih _ _ (Demod.emit_eq_failed.1 h); omega
      · have := ih _ _ (Demod.emit_eq_failed.1 h); omega
      · cases h; omega
    · cases h

/-- The steps of R124 that reach the end are what the loop does. -/
theorem demodLoop_of_demodulates {x : Nat → Nat} {n i b8 b8' : Nat} {bits : List Bit}
    (h : Demodulates x n i b8 bits b8') : ∀ fuel, n - 2 - i ≤ fuel → demodLoop x n fuel i b8 = .decoded bits b8' := by
  induction h with
  | stop i b8 h => exact fun f _ => demodLoop_stop x f b8 h
  | one i b8 bits b8' h hc rest ih =>
    intro f hf
    obtain ⟨m, rfl⟩ : ∃ m, f = m + 1 := ⟨f - 1, by omega⟩
    rw [demodLoop_succ, if_pos h, classify_of_isOne hc]; simp only [ih m (by omega), Demod.emit_decoded]
  | zero i b8 bits b8' h hc rest ih =>
    intro f hf
    obtain ⟨m, rfl⟩ : ∃ m, f = m + 1 := ⟨f - 1, by omega⟩
    rw [demodLoop_succ, if_pos h, classify_of_isZero hc]; simp only [ih m (by omega), Demod.emit_decoded]

/-- The steps of R124 that reach an interval in neither band are what the loop does. -/
theorem demodLoop_of_failsAt {x : Nat → Nat} {n i b8 j b8' : Nat} (h : FailsAt x n i b8 j b8') :
    ∀ fuel, n - 2 - i ≤ fuel → demodLoop x n fuel i b8 = .failed j b8' := by
  induction h with
  | here i b8 h h1 h0 =>
    intro f hf
    obtain ⟨m, rfl⟩ : ∃ m, f = m + 1 := ⟨f - 1, by omega⟩
    rw [demodLoop_succ, if_pos h, classify_of_neither h1 h0]
  | one i b8 j b8' h hc rest ih =>
    intro f hf
    obtain ⟨m, rfl⟩ : ∃ m, f = m + 1 := ⟨f - 1, by omega⟩
    rw [demodLoop_succ, if_pos h, classify_of_isOne hc]; simp only [ih m (by omega), Demod.emit_failed]
  | zero i b8 j b8' h hc rest ih =>
    intro f hf
    obtain ⟨m, rfl⟩ : ∃ m, f = m + 1 := ⟨f - 1, by omega⟩
    rw [demodLoop_succ, if_pos h, classify_of_isZero hc]; simp only [ih m (by omega), Demod.emit_failed]

/-- Everything the loop can do, as steps of R124. -/
theorem demodLoop_cases (x : Nat → Nat) (n : Nat) : ∀ fuel i b8, n - 2 - i ≤ fuel →
    (∃ bits c, demodLoop x n fuel i b8 = .decoded bits c ∧ Demodulates x n i b8 bits c) ∨
      (∃ j c, demodLoop x n fuel i b8 = .failed j c ∧ FailsAt x n i b8 j c) := by
  intro fuel
  induction fuel with
  | zero => intro i b8 h; exact .inl ⟨_, _, rfl, .stop i b8 (by omega)⟩
  | succ m ih =>
    intro i b8 h
    by_cases hi : i < n - 2
    · rw [demodLoop_succ, if_pos hi]
      rcases classify_spec (x i) (x (i + 1)) b8 with ⟨e, h1⟩ | ⟨e, h1, h0⟩ | ⟨e, h1, h0⟩ <;> rw [e]
      · rcases ih (i + 2) (8 * (x i + x (i + 1))) (by omega) with ⟨bits, c, e, d⟩ | ⟨j, c, e, d⟩
        · exact .inl ⟨_, _, by simp only [e]; rfl, .one _ _ _ _ hi h1 d⟩
        · exact .inr ⟨_, _, by simp only [e]; rfl, .one _ _ _ _ hi h1 d⟩
      · rcases ih (i + 1) (8 * x i) (by omega) with ⟨bits, c, e, d⟩ | ⟨j, c, e, d⟩
        · exact .inl ⟨_, _, by simp only [e]; rfl, .zero _ _ _ _ hi h0 d⟩
        · exact .inr ⟨_, _, by simp only [e]; rfl, .zero _ _ _ _ hi h0 d⟩
      · exact .inr ⟨i, b8, rfl, .here i b8 hi h1 h0⟩
    · exact .inl ⟨_, _, demodLoop_stop x _ b8 hi, .stop i b8 hi⟩

/-- The baseline a loop's end leaves. -/
def Demod.base8 : Demod → Nat
  | .decoded _ b8 => b8
  | .failed _ b8 => b8

@[simp] theorem Demod.base8_emit (b : Bit) (d : Demod) : (d.emit b).base8 = d.base8 := by cases d <;> rfl

/-- Every baseline of 28-bit intervals fits in 32 bits (R26). -/
theorem demodLoop_base8_lt {x : Nat → Nat} (n : Nat) (hx : ∀ k, x k < 2 ^ 28) : ∀ fuel i b8, b8 < 2 ^ 32 →
    (demodLoop x n fuel i b8).base8 < 2 ^ 32 := by
  intro fuel
  induction fuel with
  | zero => intro i b8 h; exact h
  | succ m ih =>
    intro i b8 h
    by_cases hi : i < n - 2
    · rw [demodLoop_succ, if_pos hi]
      have h0 := hx i
      have h1 := hx (i + 1)
      cases classify (x i) (x (i + 1)) b8 with
      | one => simp only [Demod.base8_emit]; exact ih _ _ (by omega)
      | zero => simp only [Demod.base8_emit]; exact ih _ _ (by omega)
      | unclassified => exact h
    · rw [demodLoop_stop x _ b8 hi]; exact h

/-- The seed baseline is the sum written out in R121. -/
theorem seedBase8_eq (x : Nat → Nat) : seedBase8 x = seedOf x := by
  simp [seedBase8, Profile.baseLast, Profile.baseFirst, List.range_succ, seedOf]; omega

@[simp] theorem length_warmup : warmup.length = 10 := rfl

end Sys2Proof.Machine
end

