-- ==== Sys2Proof/Laws/Operands.lean ====
section
/-! SUPPORT. What the operand forms are, bit by bit: symbols, reversal, the bits LDB appends, the packed windows. -/

namespace Sys2Proof.Machine

/-- Bit `k` of a numeral written most significant first. -/
theorem getLsbD_msbFirst (f : Nat → Bit) (n k : Nat) :
    (msbFirst f n).getLsbD k = (decide (k < n) && (f (n - 1 - k)).getLsbD 0) := by
  induction n generalizing k with
  | zero => simp [msbFirst]
  | succ n ih =>
    rw [msbFirst, BitVec.getLsbD_append]
    cases k with
    | zero => simp
    | succ k =>
      have : n - (k + 1) = n - 1 - k := by omega
      simp [ih, this]

/-- Two numerals of the same bits are equal. -/
theorem msbFirst_congr {f g : Nat → Bit} {n : Nat} (h : ∀ k, k < n → f k = g k) : msbFirst f n = msbFirst g n := by
  apply BitVec.eq_of_getLsbD_eq
  intro k hk
  simp only [getLsbD_msbFirst, hk]
  rw [h _ (by omega)]

/-- `sym8` is bit 7 first (R12). -/
theorem getLsbD_sym8 (b : Buffer 1) (p k : Nat) (hk : k < 8) : (sym8 b p).getLsbD k = (b.read (p + (7 - k))).getLsbD 0 := by
  rw [sym8, getLsbD_msbFirst]; simp [hk]

theorem sym8_congr {a b : Buffer 1} {p : Nat} (h : ∀ k, k < 8 → a.read (p + k) = b.read (p + k)) : sym8 a p = sym8 b p :=
  msbFirst_congr h

/-- Bit `k` of `rev8 x` is bit `7-k` of `x` (R12). -/
theorem getLsbD_rev8 (x : Symbol) (k : Nat) (hk : k < 8) : (rev8 x).getLsbD k = x.getLsbD (7 - k) := by
  rw [rev8, getLsbD_msbFirst]; simp [hk]

/-- Reversing twice gives the symbol back. -/
theorem rev8_rev8 (x : Symbol) : rev8 (rev8 x) = x := by
  apply BitVec.eq_of_getLsbD_eq
  intro k hk
  rw [getLsbD_rev8 _ _ hk, getLsbD_rev8 _ _ (by omega)]
  congr 1
  omega

/-- `rev8` confuses no two symbols. -/
theorem rev8_inj {x y : Symbol} : rev8 x = rev8 y ↔ x = y :=
  ⟨fun h => by rw [← rev8_rev8 x, h, rev8_rev8], fun h => by rw [h]⟩

@[simp] theorem inv8_inv8 (x : Symbol) : inv8 (inv8 x) = x := by simp [inv8]

@[simp] theorem length_ldbBits (nb : BitVec 5) (d : BitVec 16) : (ldbBits nb d).length = nb.toNat := by simp [ldbBits]

/-- The `j`-th bit LDB appends is `BDATA[NB-1-j]` (R113). -/
theorem getElem_ldbBits (nb : BitVec 5) (d : BitVec 16) (j : Nat) (h : j < (ldbBits nb d).length) :
    (ldbBits nb d)[j] = d.extractLsb' (nb.toNat - 1 - j) 1 := by simp [ldbBits]

theorem Symbols.at_of_lt (v : Symbols) {i : Nat} (h : i < 25) : v.at i = v[i] := by simp [Symbols.at, h]

theorem Symbols.at_of_ge (v : Symbols) {i : Nat} (h : 25 ≤ i) : v.at i = 0#8 := by
  simp [Symbols.at, Nat.not_lt.2 h]

@[simp] theorem Symbols.at_replicate (i : Nat) : Symbols.at (Vector.replicate 25 0#8) i = 0#8 := by
  unfold Symbols.at; split <;> simp

/-- Symbol registers with the same 25 symbols are equal. -/
theorem Symbols.ext_at {u v : Symbols} (h : ∀ i, i < 25 → u.at i = v.at i) : u = v := by
  apply Vector.ext
  intro i hi
  have := h i hi
  rwa [at_of_lt _ hi, at_of_lt _ hi] at this

/-- Symbol `j` of the window at `p` (R145). -/
@[simp] theorem at_sliceWindow (b : Buffer 1) (p j : Nat) (h : j < 25) : (sliceWindow b p).at j = sym8 b (p + 8 * j) := by
  simp [Symbols.at, h, sliceWindow]

/-- Byte `j` of the record (R164). -/
@[simp] theorem at_invertAll (v : Symbols) (j : Nat) (h : j < 25) : (invertAll v).at j = inv8 (v.at j) := by
  simp [Symbols.at, h, invertAll]

/-- Byte `j` of a packed word is symbol `4k+j` (R58). -/
theorem packSymbols_byte (v : Symbols) (k : Nat) :
    (packSymbols v k).extractLsb' 0 8 = v.at (4 * k) ∧ (packSymbols v k).extractLsb' 8 8 = v.at (4 * k + 1) ∧
      (packSymbols v k).extractLsb' 16 8 = v.at (4 * k + 2) ∧ (packSymbols v k).extractLsb' 24 8 = v.at (4 * k + 3) := by
  unfold packSymbols
  refine ⟨?_, ?_, ?_, ?_⟩ <;>
  · apply BitVec.eq_of_getLsbD_eq
    intro i hi
    simp only [BitVec.getLsbD_extractLsb', BitVec.getLsbD_append, hi]
    grind

/-- Bit `31-j` of BWIN[k] is the bit of the stream at `32k+j`, 0 beyond BCNT (R56). -/
theorem getLsbD_bwinWord (s : State) (k j : Nat) (hj : j < 32) :
    (s.bwinWord k).getLsbD (31 - j) = (s.visibleBit (32 * k + j)).getLsbD 0 := by
  have : 31 - (31 - j) = j := by omega
  rw [State.bwinWord, getLsbD_msbFirst]; simp [this, show 31 - j < 32 by omega]

end Sys2Proof.Machine
end

