-- ==== Sys2Proof/Laws/Locator.lean ====
section
/-! SUPPORT. What the sentinel search finds (spec/43_locator.md R140 to R142) and what the validator's checks say
(spec/44_validator.md R161 to R163). -/

namespace Sys2Proof.Machine

/-- `sentinelAt` is the sentinel of R140, bit by bit. -/
theorem sentinelAt_iff (b : Buffer 1) (q : Nat) : sentinelAt b q = true ↔ SentinelBits b q := by
  rw [sentinelAt, decide_eq_true_iff]
  simp only [Profile.sentinel, Buffer.slice, List.length, List.range_succ, List.range_zero, List.nil_append,
    List.map_cons, List.map_nil, List.cons_append, List.cons.injEq, and_true]
  constructor
  · rintro ⟨h0, h1, h2, h3, h4, h5, h6, h7⟩
    refine ⟨fun k hk => ?_, h7⟩
    match k, hk with
    | 0, _ => exact h0
    | 1, _ => exact h1
    | 2, _ => exact h2
    | 3, _ => exact h3
    | 4, _ => exact h4
    | 5, _ => exact h5
    | 6, _ => exact h6
  · rintro ⟨h, h7⟩
    exact ⟨h 0 (by omega), h 1 (by omega), h 2 (by omega), h 3 (by omega), h 4 (by omega), h 5 (by omega), h 6 (by omega), h7⟩

/-- What the search answers when it finds the sentinel: its first occurrence (R142). -/
theorem firstSentinel_eq_some {b : Buffer 1} {n p : Nat} : firstSentinel b n = some p ↔ FirstSentinelAt b n p := by
  unfold firstSentinel
  rw [List.find?_range_eq_some]
  simp only [sentinelAt_iff, List.mem_range, List.length, Bool.not_eq_true',
    Bool.eq_false_iff, ne_eq]
  constructor
  · rintro ⟨h1, h2, h3⟩; exact ⟨by omega, h1, h3⟩
  · rintro ⟨h1, h2, h3⟩; exact ⟨h2, by omega, h3⟩

/-- What the search answers when it finds none. -/
theorem firstSentinel_eq_none {b : Buffer 1} {n : Nat} : firstSentinel b n = none ↔ NoSentinel b n := by
  unfold firstSentinel
  rw [List.find?_eq_none]
  simp only [sentinelAt_iff, List.mem_range, List.length, NoSentinel]
  constructor <;> intro h q hq <;> exact h q (by omega)

/-- Read as a symbol, the sentinel is 0xFE (R140). -/
theorem sym8_of_sentinelBits {b : Buffer 1} {q : Nat} (h : SentinelBits b q) : sym8 b q = 0xFE#8 := by
  apply BitVec.eq_of_getLsbD_eq
  intro k hk
  rw [getLsbD_sym8 _ _ _ hk]
  cases k with
  | zero => rw [h.zero]; rfl
  | succ k =>
    rw [h.ones _ (by omega)]
    match k, hk with
    | 0, _ => rfl
    | 1, _ => rfl
    | 2, _ => rfl
    | 3, _ => rfl
    | 4, _ => rfl
    | 5, _ => rfl
    | 6, _ => rfl

/-- The reversal check is R161's equation. -/
theorem reversalHolds_iff (v : Symbols) : reversalHolds v = true ↔ v.at 0 = rev8 (v.at 24) := by simp [reversalHolds]

theorem mem_mirrorRange (i : Nat) : i ∈ Profile.mirrorRange ↔ 1 ≤ i ∧ i ≤ 12 := by
  simp [Profile.mirrorRange]; omega

/-- No mirror fault: every pair of R162 agrees. -/
theorem firstMirrorFault_eq_none (v : Symbols) :
    firstMirrorFault v = none ↔ ∀ i, 1 ≤ i → i ≤ 12 → v.at i = v.at (24 - i) := by
  simp only [firstMirrorFault, List.find?_eq_none, mem_mirrorRange, bne_iff_ne, ne_eq, Decidable.not_not, and_imp]

/-- A mirror fault is the first pair of R162 that differs. -/
theorem firstMirrorFault_eq_some (v : Symbols) (i : Nat) :
    firstMirrorFault v = some i ↔
      (1 ≤ i ∧ i ≤ 12) ∧ v.at i ≠ v.at (24 - i) ∧ ∀ k, 1 ≤ k → k < i → v.at k = v.at (24 - k) := by
  have hr : Profile.mirrorRange = (List.range 12).map (· + 1) := rfl
  rw [firstMirrorFault, hr, List.find?_map, Option.map_eq_some_iff]
  simp only [List.find?_range_eq_some, Function.comp_apply, List.mem_range, bne_iff_ne, ne_eq, Bool.not_eq_true',
    bne_eq_false_iff_eq]
  constructor
  · rintro ⟨a, ⟨h1, h2, h3⟩, rfl⟩
    refine ⟨by omega, h1, fun k hk hk' => ?_⟩
    have := h3 (k - 1) (by omega)
    rwa [show k - 1 + 1 = k by omega] at this
  · rintro ⟨h1, h2, h3⟩
    refine ⟨i - 1, ⟨?_, by omega, fun j hj => h3 (j + 1) (by omega) (by omega)⟩, by omega⟩
    rwa [show i - 1 + 1 = i by omega]

/-- The checksum written out (R163). -/
theorem checksum_eq (v : Symbols) : checksum v = 0xFF#8 ^^^ v.at 1 ^^^ v.at 2 ^^^ v.at 3 ^^^ v.at 4 ^^^ v.at 5 ^^^ v.at 6 ^^^
    v.at 7 ^^^ v.at 8 ^^^ v.at 9 ^^^ v.at 10 := rfl

end Sys2Proof.Machine
end

