-- ==== Sys2Proof/Laws/State.lean ====
section
/-! SUPPORT. What each named update of State leaves in each field: one simp lemma per field per update, so that no proof
unfolds a record update. -/

namespace Sys2Proof.Machine.State

variable (s : State)

@[simp] theorem accept_params (w : Word) : (s.accept w).params = s.params := rfl
@[simp] theorem accept_ibuf (w : Word) : (s.accept w).ibuf = s.ibuf := rfl
@[simp] theorem accept_icnt (w : Word) : (s.accept w).icnt = s.icnt := rfl
@[simp] theorem accept_bbuf (w : Word) : (s.accept w).bbuf = s.bbuf := rfl
@[simp] theorem accept_bcnt (w : Word) : (s.accept w).bcnt = s.bcnt := rfl
@[simp] theorem accept_base8 (w : Word) : (s.accept w).base8 = s.base8 := rfl
@[simp] theorem accept_offset (w : Word) : (s.accept w).offset = s.offset := rfl
@[simp] theorem accept_sym (w : Word) : (s.accept w).sym = s.sym := rfl
@[simp] theorem accept_record (w : Word) : (s.accept w).record = s.record := rfl
@[simp] theorem accept_fidx (w : Word) : (s.accept w).fidx = s.fidx := rfl
@[simp] theorem accept_xsum (w : Word) : (s.accept w).xsum = s.xsum := rfl
@[simp] theorem accept_ie (w : Word) : (s.accept w).ie = s.ie := rfl
@[simp] theorem accept_pend (w : Word) : (s.accept w).pend = w := rfl
@[simp] theorem accept_rdata (w : Word) : (s.accept w).rdata = s.rdata := rfl
@[simp] theorem accept_schedule (w : Word) : (s.accept w).schedule = s.schedule := rfl
@[simp] theorem accept_draws (w : Word) : (s.accept w).draws = s.draws := rfl
@[simp] theorem accept_busy (w : Word) : (s.accept w).status.busy = true := rfl
@[simp] theorem accept_done (w : Word) : (s.accept w).status.done = false := rfl
@[simp] theorem accept_err (w : Word) : (s.accept w).status.err = s.status.err := rfl
@[simp] theorem accept_ovr (w : Word) : (s.accept w).status.ovr = s.status.ovr := rfl
@[simp] theorem accept_berr (w : Word) : (s.accept w).status.berr = s.status.berr := rfl
@[simp] theorem accept_loc (w : Word) : (s.accept w).status.loc = s.status.loc := rfl
@[simp] theorem accept_symv (w : Word) : (s.accept w).status.symv = s.status.symv := rfl
@[simp] theorem accept_rvalid (w : Word) : (s.accept w).status.rvalid = s.status.rvalid := rfl
@[simp] theorem accept_fcode (w : Word) : (s.accept w).status.fcode = s.status.fcode := rfl

@[simp] theorem complete_params : s.complete.params = s.params := rfl
@[simp] theorem complete_ibuf : s.complete.ibuf = s.ibuf := rfl
@[simp] theorem complete_icnt : s.complete.icnt = s.icnt := rfl
@[simp] theorem complete_bbuf : s.complete.bbuf = s.bbuf := rfl
@[simp] theorem complete_bcnt : s.complete.bcnt = s.bcnt := rfl
@[simp] theorem complete_base8 : s.complete.base8 = s.base8 := rfl
@[simp] theorem complete_offset : s.complete.offset = s.offset := rfl
@[simp] theorem complete_sym : s.complete.sym = s.sym := rfl
@[simp] theorem complete_record : s.complete.record = s.record := rfl
@[simp] theorem complete_fidx : s.complete.fidx = s.fidx := rfl
@[simp] theorem complete_xsum : s.complete.xsum = s.xsum := rfl
@[simp] theorem complete_ie : s.complete.ie = s.ie := rfl
@[simp] theorem complete_pend : s.complete.pend = s.pend := rfl
@[simp] theorem complete_rdata : s.complete.rdata = s.rdata := rfl
@[simp] theorem complete_schedule : s.complete.schedule = s.schedule := rfl
@[simp] theorem complete_draws : s.complete.draws = s.draws := rfl
@[simp] theorem complete_busy : s.complete.status.busy = false := rfl
@[simp] theorem complete_done : s.complete.status.done = true := rfl
@[simp] theorem complete_err : s.complete.status.err = s.status.err := rfl
@[simp] theorem complete_ovr : s.complete.status.ovr = s.status.ovr := rfl
@[simp] theorem complete_berr : s.complete.status.berr = s.status.berr := rfl
@[simp] theorem complete_loc : s.complete.status.loc = s.status.loc := rfl
@[simp] theorem complete_symv : s.complete.status.symv = s.status.symv := rfl
@[simp] theorem complete_rvalid : s.complete.status.rvalid = s.status.rvalid := rfl
@[simp] theorem complete_fcode : s.complete.status.fcode = .ok := rfl

@[simp] theorem raise_params (c : FCode) (n : Nat) : (s.raise c n).params = s.params := rfl
@[simp] theorem raise_ibuf (c : FCode) (n : Nat) : (s.raise c n).ibuf = s.ibuf := rfl
@[simp] theorem raise_icnt (c : FCode) (n : Nat) : (s.raise c n).icnt = s.icnt := rfl
@[simp] theorem raise_bbuf (c : FCode) (n : Nat) : (s.raise c n).bbuf = s.bbuf := rfl
@[simp] theorem raise_bcnt (c : FCode) (n : Nat) : (s.raise c n).bcnt = s.bcnt := rfl
@[simp] theorem raise_base8 (c : FCode) (n : Nat) : (s.raise c n).base8 = s.base8 := rfl
@[simp] theorem raise_offset (c : FCode) (n : Nat) : (s.raise c n).offset = s.offset := rfl
@[simp] theorem raise_sym (c : FCode) (n : Nat) : (s.raise c n).sym = s.sym := rfl
@[simp] theorem raise_record (c : FCode) (n : Nat) : (s.raise c n).record = s.record := rfl
@[simp] theorem raise_fidx (c : FCode) (n : Nat) : (s.raise c n).fidx = n := rfl
@[simp] theorem raise_xsum (c : FCode) (n : Nat) : (s.raise c n).xsum = s.xsum := rfl
@[simp] theorem raise_ie (c : FCode) (n : Nat) : (s.raise c n).ie = s.ie := rfl
@[simp] theorem raise_pend (c : FCode) (n : Nat) : (s.raise c n).pend = s.pend := rfl
@[simp] theorem raise_rdata (c : FCode) (n : Nat) : (s.raise c n).rdata = s.rdata := rfl
@[simp] theorem raise_schedule (c : FCode) (n : Nat) : (s.raise c n).schedule = s.schedule := rfl
@[simp] theorem raise_draws (c : FCode) (n : Nat) : (s.raise c n).draws = s.draws := rfl
@[simp] theorem raise_busy (c : FCode) (n : Nat) : (s.raise c n).status.busy = false := rfl
@[simp] theorem raise_done (c : FCode) (n : Nat) : (s.raise c n).status.done = true := rfl
@[simp] theorem raise_err (c : FCode) (n : Nat) : (s.raise c n).status.err = true := rfl
@[simp] theorem raise_ovr (c : FCode) (n : Nat) : (s.raise c n).status.ovr = s.status.ovr := rfl
@[simp] theorem raise_berr (c : FCode) (n : Nat) : (s.raise c n).status.berr = s.status.berr := rfl
@[simp] theorem raise_loc (c : FCode) (n : Nat) : (s.raise c n).status.loc = s.status.loc := rfl
@[simp] theorem raise_symv (c : FCode) (n : Nat) : (s.raise c n).status.symv = s.status.symv := rfl
@[simp] theorem raise_rvalid (c : FCode) (n : Nat) : (s.raise c n).status.rvalid = s.status.rvalid := rfl
@[simp] theorem raise_fcode (c : FCode) (n : Nat) : (s.raise c n).status.fcode = c := rfl

@[simp] theorem clearLocated_params : s.clearLocated.params = s.params := rfl
@[simp] theorem clearLocated_ibuf : s.clearLocated.ibuf = s.ibuf := rfl
@[simp] theorem clearLocated_icnt : s.clearLocated.icnt = s.icnt := rfl
@[simp] theorem clearLocated_bbuf : s.clearLocated.bbuf = s.bbuf := rfl
@[simp] theorem clearLocated_bcnt : s.clearLocated.bcnt = s.bcnt := rfl
@[simp] theorem clearLocated_base8 : s.clearLocated.base8 = s.base8 := rfl
@[simp] theorem clearLocated_offset : s.clearLocated.offset = s.offset := rfl
@[simp] theorem clearLocated_sym : s.clearLocated.sym = s.sym := rfl
@[simp] theorem clearLocated_record : s.clearLocated.record = s.record := rfl
@[simp] theorem clearLocated_fidx : s.clearLocated.fidx = s.fidx := rfl
@[simp] theorem clearLocated_xsum : s.clearLocated.xsum = s.xsum := rfl
@[simp] theorem clearLocated_ie : s.clearLocated.ie = s.ie := rfl
@[simp] theorem clearLocated_pend : s.clearLocated.pend = s.pend := rfl
@[simp] theorem clearLocated_rdata : s.clearLocated.rdata = s.rdata := rfl
@[simp] theorem clearLocated_schedule : s.clearLocated.schedule = s.schedule := rfl
@[simp] theorem clearLocated_draws : s.clearLocated.draws = s.draws := rfl
@[simp] theorem clearLocated_busy : s.clearLocated.status.busy = s.status.busy := rfl
@[simp] theorem clearLocated_done : s.clearLocated.status.done = s.status.done := rfl
@[simp] theorem clearLocated_err : s.clearLocated.status.err = s.status.err := rfl
@[simp] theorem clearLocated_ovr : s.clearLocated.status.ovr = s.status.ovr := rfl
@[simp] theorem clearLocated_berr : s.clearLocated.status.berr = s.status.berr := rfl
@[simp] theorem clearLocated_loc : s.clearLocated.status.loc = false := rfl
@[simp] theorem clearLocated_symv : s.clearLocated.status.symv = false := rfl
@[simp] theorem clearLocated_rvalid : s.clearLocated.status.rvalid = false := rfl
@[simp] theorem clearLocated_fcode : s.clearLocated.status.fcode = s.status.fcode := rfl

@[simp] theorem setLoc_params : s.setLoc.params = s.params := rfl
@[simp] theorem setLoc_ibuf : s.setLoc.ibuf = s.ibuf := rfl
@[simp] theorem setLoc_icnt : s.setLoc.icnt = s.icnt := rfl
@[simp] theorem setLoc_bbuf : s.setLoc.bbuf = s.bbuf := rfl
@[simp] theorem setLoc_bcnt : s.setLoc.bcnt = s.bcnt := rfl
@[simp] theorem setLoc_base8 : s.setLoc.base8 = s.base8 := rfl
@[simp] theorem setLoc_offset : s.setLoc.offset = s.offset := rfl
@[simp] theorem setLoc_sym : s.setLoc.sym = s.sym := rfl
@[simp] theorem setLoc_record : s.setLoc.record = s.record := rfl
@[simp] theorem setLoc_fidx : s.setLoc.fidx = s.fidx := rfl
@[simp] theorem setLoc_xsum : s.setLoc.xsum = s.xsum := rfl
@[simp] theorem setLoc_ie : s.setLoc.ie = s.ie := rfl
@[simp] theorem setLoc_pend : s.setLoc.pend = s.pend := rfl
@[simp] theorem setLoc_rdata : s.setLoc.rdata = s.rdata := rfl
@[simp] theorem setLoc_schedule : s.setLoc.schedule = s.schedule := rfl
@[simp] theorem setLoc_draws : s.setLoc.draws = s.draws := rfl
@[simp] theorem setLoc_busy : s.setLoc.status.busy = s.status.busy := rfl
@[simp] theorem setLoc_done : s.setLoc.status.done = s.status.done := rfl
@[simp] theorem setLoc_err : s.setLoc.status.err = s.status.err := rfl
@[simp] theorem setLoc_ovr : s.setLoc.status.ovr = s.status.ovr := rfl
@[simp] theorem setLoc_berr : s.setLoc.status.berr = s.status.berr := rfl
@[simp] theorem setLoc_loc : s.setLoc.status.loc = true := rfl
@[simp] theorem setLoc_symv : s.setLoc.status.symv = s.status.symv := rfl
@[simp] theorem setLoc_rvalid : s.setLoc.status.rvalid = s.status.rvalid := rfl
@[simp] theorem setLoc_fcode : s.setLoc.status.fcode = s.status.fcode := rfl

@[simp] theorem setSymv_params : s.setSymv.params = s.params := rfl
@[simp] theorem setSymv_ibuf : s.setSymv.ibuf = s.ibuf := rfl
@[simp] theorem setSymv_icnt : s.setSymv.icnt = s.icnt := rfl
@[simp] theorem setSymv_bbuf : s.setSymv.bbuf = s.bbuf := rfl
@[simp] theorem setSymv_bcnt : s.setSymv.bcnt = s.bcnt := rfl
@[simp] theorem setSymv_base8 : s.setSymv.base8 = s.base8 := rfl
@[simp] theorem setSymv_offset : s.setSymv.offset = s.offset := rfl
@[simp] theorem setSymv_sym : s.setSymv.sym = s.sym := rfl
@[simp] theorem setSymv_record : s.setSymv.record = s.record := rfl
@[simp] theorem setSymv_fidx : s.setSymv.fidx = s.fidx := rfl
@[simp] theorem setSymv_xsum : s.setSymv.xsum = s.xsum := rfl
@[simp] theorem setSymv_ie : s.setSymv.ie = s.ie := rfl
@[simp] theorem setSymv_pend : s.setSymv.pend = s.pend := rfl
@[simp] theorem setSymv_rdata : s.setSymv.rdata = s.rdata := rfl
@[simp] theorem setSymv_schedule : s.setSymv.schedule = s.schedule := rfl
@[simp] theorem setSymv_draws : s.setSymv.draws = s.draws := rfl
@[simp] theorem setSymv_busy : s.setSymv.status.busy = s.status.busy := rfl
@[simp] theorem setSymv_done : s.setSymv.status.done = s.status.done := rfl
@[simp] theorem setSymv_err : s.setSymv.status.err = s.status.err := rfl
@[simp] theorem setSymv_ovr : s.setSymv.status.ovr = s.status.ovr := rfl
@[simp] theorem setSymv_berr : s.setSymv.status.berr = s.status.berr := rfl
@[simp] theorem setSymv_loc : s.setSymv.status.loc = s.status.loc := rfl
@[simp] theorem setSymv_symv : s.setSymv.status.symv = true := rfl
@[simp] theorem setSymv_rvalid : s.setSymv.status.rvalid = false := rfl
@[simp] theorem setSymv_fcode : s.setSymv.status.fcode = s.status.fcode := rfl

@[simp] theorem setRvalid_params (v : Bool) : (s.setRvalid v).params = s.params := rfl
@[simp] theorem setRvalid_ibuf (v : Bool) : (s.setRvalid v).ibuf = s.ibuf := rfl
@[simp] theorem setRvalid_icnt (v : Bool) : (s.setRvalid v).icnt = s.icnt := rfl
@[simp] theorem setRvalid_bbuf (v : Bool) : (s.setRvalid v).bbuf = s.bbuf := rfl
@[simp] theorem setRvalid_bcnt (v : Bool) : (s.setRvalid v).bcnt = s.bcnt := rfl
@[simp] theorem setRvalid_base8 (v : Bool) : (s.setRvalid v).base8 = s.base8 := rfl
@[simp] theorem setRvalid_offset (v : Bool) : (s.setRvalid v).offset = s.offset := rfl
@[simp] theorem setRvalid_sym (v : Bool) : (s.setRvalid v).sym = s.sym := rfl
@[simp] theorem setRvalid_record (v : Bool) : (s.setRvalid v).record = s.record := rfl
@[simp] theorem setRvalid_fidx (v : Bool) : (s.setRvalid v).fidx = s.fidx := rfl
@[simp] theorem setRvalid_xsum (v : Bool) : (s.setRvalid v).xsum = s.xsum := rfl
@[simp] theorem setRvalid_ie (v : Bool) : (s.setRvalid v).ie = s.ie := rfl
@[simp] theorem setRvalid_pend (v : Bool) : (s.setRvalid v).pend = s.pend := rfl
@[simp] theorem setRvalid_rdata (v : Bool) : (s.setRvalid v).rdata = s.rdata := rfl
@[simp] theorem setRvalid_schedule (v : Bool) : (s.setRvalid v).schedule = s.schedule := rfl
@[simp] theorem setRvalid_draws (v : Bool) : (s.setRvalid v).draws = s.draws := rfl
@[simp] theorem setRvalid_busy (v : Bool) : (s.setRvalid v).status.busy = s.status.busy := rfl
@[simp] theorem setRvalid_done (v : Bool) : (s.setRvalid v).status.done = s.status.done := rfl
@[simp] theorem setRvalid_err (v : Bool) : (s.setRvalid v).status.err = s.status.err := rfl
@[simp] theorem setRvalid_ovr (v : Bool) : (s.setRvalid v).status.ovr = s.status.ovr := rfl
@[simp] theorem setRvalid_berr (v : Bool) : (s.setRvalid v).status.berr = s.status.berr := rfl
@[simp] theorem setRvalid_loc (v : Bool) : (s.setRvalid v).status.loc = s.status.loc := rfl
@[simp] theorem setRvalid_symv (v : Bool) : (s.setRvalid v).status.symv = s.status.symv := rfl
@[simp] theorem setRvalid_rvalid (v : Bool) : (s.setRvalid v).status.rvalid = v := rfl
@[simp] theorem setRvalid_fcode (v : Bool) : (s.setRvalid v).status.fcode = s.status.fcode := rfl

@[simp] theorem clearSticky_params : s.clearSticky.params = s.params := rfl
@[simp] theorem clearSticky_ibuf : s.clearSticky.ibuf = s.ibuf := rfl
@[simp] theorem clearSticky_icnt : s.clearSticky.icnt = s.icnt := rfl
@[simp] theorem clearSticky_bbuf : s.clearSticky.bbuf = s.bbuf := rfl
@[simp] theorem clearSticky_bcnt : s.clearSticky.bcnt = s.bcnt := rfl
@[simp] theorem clearSticky_base8 : s.clearSticky.base8 = s.base8 := rfl
@[simp] theorem clearSticky_offset : s.clearSticky.offset = s.offset := rfl
@[simp] theorem clearSticky_sym : s.clearSticky.sym = s.sym := rfl
@[simp] theorem clearSticky_record : s.clearSticky.record = s.record := rfl
@[simp] theorem clearSticky_fidx : s.clearSticky.fidx = s.fidx := rfl
@[simp] theorem clearSticky_xsum : s.clearSticky.xsum = s.xsum := rfl
@[simp] theorem clearSticky_ie : s.clearSticky.ie = s.ie := rfl
@[simp] theorem clearSticky_pend : s.clearSticky.pend = s.pend := rfl
@[simp] theorem clearSticky_rdata : s.clearSticky.rdata = s.rdata := rfl
@[simp] theorem clearSticky_schedule : s.clearSticky.schedule = s.schedule := rfl
@[simp] theorem clearSticky_draws : s.clearSticky.draws = s.draws := rfl
@[simp] theorem clearSticky_busy : s.clearSticky.status.busy = s.status.busy := rfl
@[simp] theorem clearSticky_done : s.clearSticky.status.done = s.status.done := rfl
@[simp] theorem clearSticky_err : s.clearSticky.status.err = false := rfl
@[simp] theorem clearSticky_ovr : s.clearSticky.status.ovr = false := rfl
@[simp] theorem clearSticky_berr : s.clearSticky.status.berr = false := rfl
@[simp] theorem clearSticky_loc : s.clearSticky.status.loc = s.status.loc := rfl
@[simp] theorem clearSticky_symv : s.clearSticky.status.symv = s.status.symv := rfl
@[simp] theorem clearSticky_rvalid : s.clearSticky.status.rvalid = s.status.rvalid := rfl
@[simp] theorem clearSticky_fcode : s.clearSticky.status.fcode = s.status.fcode := rfl

@[simp] theorem setOvr_params : s.setOvr.params = s.params := rfl
@[simp] theorem setOvr_ibuf : s.setOvr.ibuf = s.ibuf := rfl
@[simp] theorem setOvr_icnt : s.setOvr.icnt = s.icnt := rfl
@[simp] theorem setOvr_bbuf : s.setOvr.bbuf = s.bbuf := rfl
@[simp] theorem setOvr_bcnt : s.setOvr.bcnt = s.bcnt := rfl
@[simp] theorem setOvr_base8 : s.setOvr.base8 = s.base8 := rfl
@[simp] theorem setOvr_offset : s.setOvr.offset = s.offset := rfl
@[simp] theorem setOvr_sym : s.setOvr.sym = s.sym := rfl
@[simp] theorem setOvr_record : s.setOvr.record = s.record := rfl
@[simp] theorem setOvr_fidx : s.setOvr.fidx = s.fidx := rfl
@[simp] theorem setOvr_xsum : s.setOvr.xsum = s.xsum := rfl
@[simp] theorem setOvr_ie : s.setOvr.ie = s.ie := rfl
@[simp] theorem setOvr_pend : s.setOvr.pend = s.pend := rfl
@[simp] theorem setOvr_rdata : s.setOvr.rdata = s.rdata := rfl
@[simp] theorem setOvr_schedule : s.setOvr.schedule = s.schedule := rfl
@[simp] theorem setOvr_draws : s.setOvr.draws = s.draws := rfl
@[simp] theorem setOvr_busy : s.setOvr.status.busy = s.status.busy := rfl
@[simp] theorem setOvr_done : s.setOvr.status.done = s.status.done := rfl
@[simp] theorem setOvr_err : s.setOvr.status.err = s.status.err := rfl
@[simp] theorem setOvr_ovr : s.setOvr.status.ovr = true := rfl
@[simp] theorem setOvr_berr : s.setOvr.status.berr = s.status.berr := rfl
@[simp] theorem setOvr_loc : s.setOvr.status.loc = s.status.loc := rfl
@[simp] theorem setOvr_symv : s.setOvr.status.symv = s.status.symv := rfl
@[simp] theorem setOvr_rvalid : s.setOvr.status.rvalid = s.status.rvalid := rfl
@[simp] theorem setOvr_fcode : s.setOvr.status.fcode = s.status.fcode := rfl

@[simp] theorem setBerr_params : s.setBerr.params = s.params := rfl
@[simp] theorem setBerr_ibuf : s.setBerr.ibuf = s.ibuf := rfl
@[simp] theorem setBerr_icnt : s.setBerr.icnt = s.icnt := rfl
@[simp] theorem setBerr_bbuf : s.setBerr.bbuf = s.bbuf := rfl
@[simp] theorem setBerr_bcnt : s.setBerr.bcnt = s.bcnt := rfl
@[simp] theorem setBerr_base8 : s.setBerr.base8 = s.base8 := rfl
@[simp] theorem setBerr_offset : s.setBerr.offset = s.offset := rfl
@[simp] theorem setBerr_sym : s.setBerr.sym = s.sym := rfl
@[simp] theorem setBerr_record : s.setBerr.record = s.record := rfl
@[simp] theorem setBerr_fidx : s.setBerr.fidx = s.fidx := rfl
@[simp] theorem setBerr_xsum : s.setBerr.xsum = s.xsum := rfl
@[simp] theorem setBerr_ie : s.setBerr.ie = s.ie := rfl
@[simp] theorem setBerr_pend : s.setBerr.pend = s.pend := rfl
@[simp] theorem setBerr_rdata : s.setBerr.rdata = s.rdata := rfl
@[simp] theorem setBerr_schedule : s.setBerr.schedule = s.schedule := rfl
@[simp] theorem setBerr_draws : s.setBerr.draws = s.draws := rfl
@[simp] theorem setBerr_busy : s.setBerr.status.busy = s.status.busy := rfl
@[simp] theorem setBerr_done : s.setBerr.status.done = s.status.done := rfl
@[simp] theorem setBerr_err : s.setBerr.status.err = s.status.err := rfl
@[simp] theorem setBerr_ovr : s.setBerr.status.ovr = s.status.ovr := rfl
@[simp] theorem setBerr_berr : s.setBerr.status.berr = true := rfl
@[simp] theorem setBerr_loc : s.setBerr.status.loc = s.status.loc := rfl
@[simp] theorem setBerr_symv : s.setBerr.status.symv = s.status.symv := rfl
@[simp] theorem setBerr_rvalid : s.setBerr.status.rvalid = s.status.rvalid := rfl
@[simp] theorem setBerr_fcode : s.setBerr.status.fcode = s.status.fcode := rfl

@[simp] theorem clearDone_params : s.clearDone.params = s.params := rfl
@[simp] theorem clearDone_ibuf : s.clearDone.ibuf = s.ibuf := rfl
@[simp] theorem clearDone_icnt : s.clearDone.icnt = s.icnt := rfl
@[simp] theorem clearDone_bbuf : s.clearDone.bbuf = s.bbuf := rfl
@[simp] theorem clearDone_bcnt : s.clearDone.bcnt = s.bcnt := rfl
@[simp] theorem clearDone_base8 : s.clearDone.base8 = s.base8 := rfl
@[simp] theorem clearDone_offset : s.clearDone.offset = s.offset := rfl
@[simp] theorem clearDone_sym : s.clearDone.sym = s.sym := rfl
@[simp] theorem clearDone_record : s.clearDone.record = s.record := rfl
@[simp] theorem clearDone_fidx : s.clearDone.fidx = s.fidx := rfl
@[simp] theorem clearDone_xsum : s.clearDone.xsum = s.xsum := rfl
@[simp] theorem clearDone_ie : s.clearDone.ie = s.ie := rfl
@[simp] theorem clearDone_pend : s.clearDone.pend = s.pend := rfl
@[simp] theorem clearDone_rdata : s.clearDone.rdata = s.rdata := rfl
@[simp] theorem clearDone_schedule : s.clearDone.schedule = s.schedule := rfl
@[simp] theorem clearDone_draws : s.clearDone.draws = s.draws := rfl
@[simp] theorem clearDone_busy : s.clearDone.status.busy = s.status.busy := rfl
@[simp] theorem clearDone_done : s.clearDone.status.done = false := rfl
@[simp] theorem clearDone_err : s.clearDone.status.err = s.status.err := rfl
@[simp] theorem clearDone_ovr : s.clearDone.status.ovr = s.status.ovr := rfl
@[simp] theorem clearDone_berr : s.clearDone.status.berr = s.status.berr := rfl
@[simp] theorem clearDone_loc : s.clearDone.status.loc = s.status.loc := rfl
@[simp] theorem clearDone_symv : s.clearDone.status.symv = s.status.symv := rfl
@[simp] theorem clearDone_rvalid : s.clearDone.status.rvalid = s.status.rvalid := rfl
@[simp] theorem clearDone_fcode : s.clearDone.status.fcode = s.status.fcode := rfl

@[simp] theorem drawRead_params : s.drawRead.params = s.params := rfl
@[simp] theorem drawRead_ibuf : s.drawRead.ibuf = s.ibuf := rfl
@[simp] theorem drawRead_icnt : s.drawRead.icnt = s.icnt := rfl
@[simp] theorem drawRead_bbuf : s.drawRead.bbuf = s.bbuf := rfl
@[simp] theorem drawRead_bcnt : s.drawRead.bcnt = s.bcnt := rfl
@[simp] theorem drawRead_base8 : s.drawRead.base8 = s.base8 := rfl
@[simp] theorem drawRead_offset : s.drawRead.offset = s.offset := rfl
@[simp] theorem drawRead_sym : s.drawRead.sym = s.sym := rfl
@[simp] theorem drawRead_record : s.drawRead.record = s.record := rfl
@[simp] theorem drawRead_fidx : s.drawRead.fidx = s.fidx := rfl
@[simp] theorem drawRead_xsum : s.drawRead.xsum = s.xsum := rfl
@[simp] theorem drawRead_ie : s.drawRead.ie = s.ie := rfl
@[simp] theorem drawRead_pend : s.drawRead.pend = s.pend := rfl
@[simp] theorem drawRead_rdata : s.drawRead.rdata = Config.freeWord s.draws := rfl
@[simp] theorem drawRead_schedule : s.drawRead.schedule = s.schedule := rfl
@[simp] theorem drawRead_draws : s.drawRead.draws = s.draws + 1 := rfl
@[simp] theorem drawRead_status : s.drawRead.status = s.status := rfl

@[simp] theorem returnWord_params (w : Word) : (s.returnWord w).params = s.params := rfl
@[simp] theorem returnWord_ibuf (w : Word) : (s.returnWord w).ibuf = s.ibuf := rfl
@[simp] theorem returnWord_icnt (w : Word) : (s.returnWord w).icnt = s.icnt := rfl
@[simp] theorem returnWord_bbuf (w : Word) : (s.returnWord w).bbuf = s.bbuf := rfl
@[simp] theorem returnWord_bcnt (w : Word) : (s.returnWord w).bcnt = s.bcnt := rfl
@[simp] theorem returnWord_base8 (w : Word) : (s.returnWord w).base8 = s.base8 := rfl
@[simp] theorem returnWord_offset (w : Word) : (s.returnWord w).offset = s.offset := rfl
@[simp] theorem returnWord_sym (w : Word) : (s.returnWord w).sym = s.sym := rfl
@[simp] theorem returnWord_record (w : Word) : (s.returnWord w).record = s.record := rfl
@[simp] theorem returnWord_fidx (w : Word) : (s.returnWord w).fidx = s.fidx := rfl
@[simp] theorem returnWord_xsum (w : Word) : (s.returnWord w).xsum = s.xsum := rfl
@[simp] theorem returnWord_ie (w : Word) : (s.returnWord w).ie = s.ie := rfl
@[simp] theorem returnWord_pend (w : Word) : (s.returnWord w).pend = s.pend := rfl
@[simp] theorem returnWord_rdata (w : Word) : (s.returnWord w).rdata = w := rfl
@[simp] theorem returnWord_schedule (w : Word) : (s.returnWord w).schedule = s.schedule := rfl
@[simp] theorem returnWord_draws (w : Word) : (s.returnWord w).draws = s.draws := rfl
@[simp] theorem returnWord_status (w : Word) : (s.returnWord w).status = s.status := rfl

@[simp] theorem writeCtrl_params (w : Word) : (s.writeCtrl w).params = s.params := rfl
@[simp] theorem writeCtrl_ibuf (w : Word) : (s.writeCtrl w).ibuf = s.ibuf := rfl
@[simp] theorem writeCtrl_icnt (w : Word) : (s.writeCtrl w).icnt = s.icnt := rfl
@[simp] theorem writeCtrl_bbuf (w : Word) : (s.writeCtrl w).bbuf = s.bbuf := rfl
@[simp] theorem writeCtrl_bcnt (w : Word) : (s.writeCtrl w).bcnt = s.bcnt := rfl
@[simp] theorem writeCtrl_base8 (w : Word) : (s.writeCtrl w).base8 = s.base8 := rfl
@[simp] theorem writeCtrl_offset (w : Word) : (s.writeCtrl w).offset = s.offset := rfl
@[simp] theorem writeCtrl_sym (w : Word) : (s.writeCtrl w).sym = s.sym := rfl
@[simp] theorem writeCtrl_record (w : Word) : (s.writeCtrl w).record = s.record := rfl
@[simp] theorem writeCtrl_fidx (w : Word) : (s.writeCtrl w).fidx = s.fidx := rfl
@[simp] theorem writeCtrl_xsum (w : Word) : (s.writeCtrl w).xsum = s.xsum := rfl
@[simp] theorem writeCtrl_ie (w : Word) : (s.writeCtrl w).ie = w.getLsbD 0 := rfl
@[simp] theorem writeCtrl_pend (w : Word) : (s.writeCtrl w).pend = s.pend := rfl
@[simp] theorem writeCtrl_rdata (w : Word) : (s.writeCtrl w).rdata = s.rdata := rfl
@[simp] theorem writeCtrl_schedule (w : Word) : (s.writeCtrl w).schedule = s.schedule := rfl
@[simp] theorem writeCtrl_draws (w : Word) : (s.writeCtrl w).draws = s.draws := rfl
@[simp] theorem writeCtrl_status (w : Word) : (s.writeCtrl w).status = s.status := rfl

@[simp] theorem setBase8_params (n : Nat) : (s.setBase8 n).params = s.params := rfl
@[simp] theorem setBase8_ibuf (n : Nat) : (s.setBase8 n).ibuf = s.ibuf := rfl
@[simp] theorem setBase8_icnt (n : Nat) : (s.setBase8 n).icnt = s.icnt := rfl
@[simp] theorem setBase8_bbuf (n : Nat) : (s.setBase8 n).bbuf = s.bbuf := rfl
@[simp] theorem setBase8_bcnt (n : Nat) : (s.setBase8 n).bcnt = s.bcnt := rfl
@[simp] theorem setBase8_base8 (n : Nat) : (s.setBase8 n).base8 = BitVec.ofNat 32 n := rfl
@[simp] theorem setBase8_offset (n : Nat) : (s.setBase8 n).offset = s.offset := rfl
@[simp] theorem setBase8_sym (n : Nat) : (s.setBase8 n).sym = s.sym := rfl
@[simp] theorem setBase8_record (n : Nat) : (s.setBase8 n).record = s.record := rfl
@[simp] theorem setBase8_fidx (n : Nat) : (s.setBase8 n).fidx = s.fidx := rfl
@[simp] theorem setBase8_xsum (n : Nat) : (s.setBase8 n).xsum = s.xsum := rfl
@[simp] theorem setBase8_ie (n : Nat) : (s.setBase8 n).ie = s.ie := rfl
@[simp] theorem setBase8_pend (n : Nat) : (s.setBase8 n).pend = s.pend := rfl
@[simp] theorem setBase8_rdata (n : Nat) : (s.setBase8 n).rdata = s.rdata := rfl
@[simp] theorem setBase8_schedule (n : Nat) : (s.setBase8 n).schedule = s.schedule := rfl
@[simp] theorem setBase8_draws (n : Nat) : (s.setBase8 n).draws = s.draws := rfl
@[simp] theorem setBase8_status (n : Nat) : (s.setBase8 n).status = s.status := rfl

@[simp] theorem replaceBits_params (out : List Bit) : (s.replaceBits out).params = s.params := rfl
@[simp] theorem replaceBits_ibuf (out : List Bit) : (s.replaceBits out).ibuf = s.ibuf := rfl
@[simp] theorem replaceBits_icnt (out : List Bit) : (s.replaceBits out).icnt = s.icnt := rfl
@[simp] theorem replaceBits_bbuf (out : List Bit) : (s.replaceBits out).bbuf = s.bbuf.writeList 0 out := rfl
@[simp] theorem replaceBits_bcnt (out : List Bit) : (s.replaceBits out).bcnt = out.length := rfl
@[simp] theorem replaceBits_base8 (out : List Bit) : (s.replaceBits out).base8 = s.base8 := rfl
@[simp] theorem replaceBits_offset (out : List Bit) : (s.replaceBits out).offset = s.offset := rfl
@[simp] theorem replaceBits_sym (out : List Bit) : (s.replaceBits out).sym = s.sym := rfl
@[simp] theorem replaceBits_record (out : List Bit) : (s.replaceBits out).record = s.record := rfl
@[simp] theorem replaceBits_fidx (out : List Bit) : (s.replaceBits out).fidx = s.fidx := rfl
@[simp] theorem replaceBits_xsum (out : List Bit) : (s.replaceBits out).xsum = s.xsum := rfl
@[simp] theorem replaceBits_ie (out : List Bit) : (s.replaceBits out).ie = s.ie := rfl
@[simp] theorem replaceBits_pend (out : List Bit) : (s.replaceBits out).pend = s.pend := rfl
@[simp] theorem replaceBits_rdata (out : List Bit) : (s.replaceBits out).rdata = s.rdata := rfl
@[simp] theorem replaceBits_schedule (out : List Bit) : (s.replaceBits out).schedule = s.schedule := rfl
@[simp] theorem replaceBits_draws (out : List Bit) : (s.replaceBits out).draws = s.draws := rfl
@[simp] theorem replaceBits_status (out : List Bit) : (s.replaceBits out).status = s.status := rfl

@[simp] theorem dropBits_params : s.dropBits.params = s.params := rfl
@[simp] theorem dropBits_ibuf : s.dropBits.ibuf = s.ibuf := rfl
@[simp] theorem dropBits_icnt : s.dropBits.icnt = s.icnt := rfl
@[simp] theorem dropBits_bbuf : s.dropBits.bbuf = s.bbuf := rfl
@[simp] theorem dropBits_bcnt : s.dropBits.bcnt = 0 := rfl
@[simp] theorem dropBits_base8 : s.dropBits.base8 = s.base8 := rfl
@[simp] theorem dropBits_offset : s.dropBits.offset = s.offset := rfl
@[simp] theorem dropBits_sym : s.dropBits.sym = s.sym := rfl
@[simp] theorem dropBits_record : s.dropBits.record = s.record := rfl
@[simp] theorem dropBits_fidx : s.dropBits.fidx = s.fidx := rfl
@[simp] theorem dropBits_xsum : s.dropBits.xsum = s.xsum := rfl
@[simp] theorem dropBits_ie : s.dropBits.ie = s.ie := rfl
@[simp] theorem dropBits_pend : s.dropBits.pend = s.pend := rfl
@[simp] theorem dropBits_rdata : s.dropBits.rdata = s.rdata := rfl
@[simp] theorem dropBits_schedule : s.dropBits.schedule = s.schedule := rfl
@[simp] theorem dropBits_draws : s.dropBits.draws = s.draws := rfl
@[simp] theorem dropBits_status : s.dropBits.status = s.status := rfl

@[simp] theorem setSym_params (v : Symbols) : (s.setSym v).params = s.params := rfl
@[simp] theorem setSym_ibuf (v : Symbols) : (s.setSym v).ibuf = s.ibuf := rfl
@[simp] theorem setSym_icnt (v : Symbols) : (s.setSym v).icnt = s.icnt := rfl
@[simp] theorem setSym_bbuf (v : Symbols) : (s.setSym v).bbuf = s.bbuf := rfl
@[simp] theorem setSym_bcnt (v : Symbols) : (s.setSym v).bcnt = s.bcnt := rfl
@[simp] theorem setSym_base8 (v : Symbols) : (s.setSym v).base8 = s.base8 := rfl
@[simp] theorem setSym_offset (v : Symbols) : (s.setSym v).offset = s.offset := rfl
@[simp] theorem setSym_sym (v : Symbols) : (s.setSym v).sym = v := rfl
@[simp] theorem setSym_record (v : Symbols) : (s.setSym v).record = s.record := rfl
@[simp] theorem setSym_fidx (v : Symbols) : (s.setSym v).fidx = s.fidx := rfl
@[simp] theorem setSym_xsum (v : Symbols) : (s.setSym v).xsum = s.xsum := rfl
@[simp] theorem setSym_ie (v : Symbols) : (s.setSym v).ie = s.ie := rfl
@[simp] theorem setSym_pend (v : Symbols) : (s.setSym v).pend = s.pend := rfl
@[simp] theorem setSym_rdata (v : Symbols) : (s.setSym v).rdata = s.rdata := rfl
@[simp] theorem setSym_schedule (v : Symbols) : (s.setSym v).schedule = s.schedule := rfl
@[simp] theorem setSym_draws (v : Symbols) : (s.setSym v).draws = s.draws := rfl
@[simp] theorem setSym_status (v : Symbols) : (s.setSym v).status = s.status := rfl

@[simp] theorem setXsum_params (x : Symbol) : (s.setXsum x).params = s.params := rfl
@[simp] theorem setXsum_ibuf (x : Symbol) : (s.setXsum x).ibuf = s.ibuf := rfl
@[simp] theorem setXsum_icnt (x : Symbol) : (s.setXsum x).icnt = s.icnt := rfl
@[simp] theorem setXsum_bbuf (x : Symbol) : (s.setXsum x).bbuf = s.bbuf := rfl
@[simp] theorem setXsum_bcnt (x : Symbol) : (s.setXsum x).bcnt = s.bcnt := rfl
@[simp] theorem setXsum_base8 (x : Symbol) : (s.setXsum x).base8 = s.base8 := rfl
@[simp] theorem setXsum_offset (x : Symbol) : (s.setXsum x).offset = s.offset := rfl
@[simp] theorem setXsum_sym (x : Symbol) : (s.setXsum x).sym = s.sym := rfl
@[simp] theorem setXsum_record (x : Symbol) : (s.setXsum x).record = s.record := rfl
@[simp] theorem setXsum_fidx (x : Symbol) : (s.setXsum x).fidx = s.fidx := rfl
@[simp] theorem setXsum_xsum (x : Symbol) : (s.setXsum x).xsum = x := rfl
@[simp] theorem setXsum_ie (x : Symbol) : (s.setXsum x).ie = s.ie := rfl
@[simp] theorem setXsum_pend (x : Symbol) : (s.setXsum x).pend = s.pend := rfl
@[simp] theorem setXsum_rdata (x : Symbol) : (s.setXsum x).rdata = s.rdata := rfl
@[simp] theorem setXsum_schedule (x : Symbol) : (s.setXsum x).schedule = s.schedule := rfl
@[simp] theorem setXsum_draws (x : Symbol) : (s.setXsum x).draws = s.draws := rfl
@[simp] theorem setXsum_status (x : Symbol) : (s.setXsum x).status = s.status := rfl

@[simp] theorem setRecord_params (v : Symbols) : (s.setRecord v).params = s.params := rfl
@[simp] theorem setRecord_ibuf (v : Symbols) : (s.setRecord v).ibuf = s.ibuf := rfl
@[simp] theorem setRecord_icnt (v : Symbols) : (s.setRecord v).icnt = s.icnt := rfl
@[simp] theorem setRecord_bbuf (v : Symbols) : (s.setRecord v).bbuf = s.bbuf := rfl
@[simp] theorem setRecord_bcnt (v : Symbols) : (s.setRecord v).bcnt = s.bcnt := rfl
@[simp] theorem setRecord_base8 (v : Symbols) : (s.setRecord v).base8 = s.base8 := rfl
@[simp] theorem setRecord_offset (v : Symbols) : (s.setRecord v).offset = s.offset := rfl
@[simp] theorem setRecord_sym (v : Symbols) : (s.setRecord v).sym = s.sym := rfl
@[simp] theorem setRecord_record (v : Symbols) : (s.setRecord v).record = v := rfl
@[simp] theorem setRecord_fidx (v : Symbols) : (s.setRecord v).fidx = s.fidx := rfl
@[simp] theorem setRecord_xsum (v : Symbols) : (s.setRecord v).xsum = s.xsum := rfl
@[simp] theorem setRecord_ie (v : Symbols) : (s.setRecord v).ie = s.ie := rfl
@[simp] theorem setRecord_pend (v : Symbols) : (s.setRecord v).pend = s.pend := rfl
@[simp] theorem setRecord_rdata (v : Symbols) : (s.setRecord v).rdata = s.rdata := rfl
@[simp] theorem setRecord_schedule (v : Symbols) : (s.setRecord v).schedule = s.schedule := rfl
@[simp] theorem setRecord_draws (v : Symbols) : (s.setRecord v).draws = s.draws := rfl
@[simp] theorem setRecord_status (v : Symbols) : (s.setRecord v).status = s.status := rfl

@[simp] theorem appendInterval_params (v : Interval) : (s.appendInterval v).params = s.params := rfl
@[simp] theorem appendInterval_ibuf (v : Interval) : (s.appendInterval v).ibuf = s.ibuf.write s.icnt v := rfl
@[simp] theorem appendInterval_icnt (v : Interval) : (s.appendInterval v).icnt = s.icnt + 1 := rfl
@[simp] theorem appendInterval_bbuf (v : Interval) : (s.appendInterval v).bbuf = s.bbuf := rfl
@[simp] theorem appendInterval_bcnt (v : Interval) : (s.appendInterval v).bcnt = s.bcnt := rfl
@[simp] theorem appendInterval_base8 (v : Interval) : (s.appendInterval v).base8 = s.base8 := rfl
@[simp] theorem appendInterval_offset (v : Interval) : (s.appendInterval v).offset = s.offset := rfl
@[simp] theorem appendInterval_sym (v : Interval) : (s.appendInterval v).sym = s.sym := rfl
@[simp] theorem appendInterval_record (v : Interval) : (s.appendInterval v).record = s.record := rfl
@[simp] theorem appendInterval_fidx (v : Interval) : (s.appendInterval v).fidx = s.fidx := rfl
@[simp] theorem appendInterval_xsum (v : Interval) : (s.appendInterval v).xsum = s.xsum := rfl
@[simp] theorem appendInterval_ie (v : Interval) : (s.appendInterval v).ie = s.ie := rfl
@[simp] theorem appendInterval_pend (v : Interval) : (s.appendInterval v).pend = s.pend := rfl
@[simp] theorem appendInterval_rdata (v : Interval) : (s.appendInterval v).rdata = s.rdata := rfl
@[simp] theorem appendInterval_schedule (v : Interval) : (s.appendInterval v).schedule = s.schedule := rfl
@[simp] theorem appendInterval_draws (v : Interval) : (s.appendInterval v).draws = s.draws := rfl
@[simp] theorem appendInterval_status (v : Interval) : (s.appendInterval v).status = s.status := rfl

@[simp] theorem appendBits_params (bits : List Bit) : (s.appendBits bits).params = s.params := rfl
@[simp] theorem appendBits_ibuf (bits : List Bit) : (s.appendBits bits).ibuf = s.ibuf := rfl
@[simp] theorem appendBits_icnt (bits : List Bit) : (s.appendBits bits).icnt = s.icnt := rfl
@[simp] theorem appendBits_bbuf (bits : List Bit) : (s.appendBits bits).bbuf = s.bbuf.writeList s.bcnt bits := rfl
@[simp] theorem appendBits_bcnt (bits : List Bit) : (s.appendBits bits).bcnt = s.bcnt + bits.length := rfl
@[simp] theorem appendBits_base8 (bits : List Bit) : (s.appendBits bits).base8 = s.base8 := rfl
@[simp] theorem appendBits_offset (bits : List Bit) : (s.appendBits bits).offset = s.offset := rfl
@[simp] theorem appendBits_sym (bits : List Bit) : (s.appendBits bits).sym = s.sym := rfl
@[simp] theorem appendBits_record (bits : List Bit) : (s.appendBits bits).record = s.record := rfl
@[simp] theorem appendBits_fidx (bits : List Bit) : (s.appendBits bits).fidx = s.fidx := rfl
@[simp] theorem appendBits_xsum (bits : List Bit) : (s.appendBits bits).xsum = s.xsum := rfl
@[simp] theorem appendBits_ie (bits : List Bit) : (s.appendBits bits).ie = s.ie := rfl
@[simp] theorem appendBits_pend (bits : List Bit) : (s.appendBits bits).pend = s.pend := rfl
@[simp] theorem appendBits_rdata (bits : List Bit) : (s.appendBits bits).rdata = s.rdata := rfl
@[simp] theorem appendBits_schedule (bits : List Bit) : (s.appendBits bits).schedule = s.schedule := rfl
@[simp] theorem appendBits_draws (bits : List Bit) : (s.appendBits bits).draws = s.draws := rfl
@[simp] theorem appendBits_status (bits : List Bit) : (s.appendBits bits).status = s.status := rfl

@[simp] theorem setOffset_params (p : Nat) : (s.setOffset p).params = s.params := rfl
@[simp] theorem setOffset_ibuf (p : Nat) : (s.setOffset p).ibuf = s.ibuf := rfl
@[simp] theorem setOffset_icnt (p : Nat) : (s.setOffset p).icnt = s.icnt := rfl
@[simp] theorem setOffset_bbuf (p : Nat) : (s.setOffset p).bbuf = s.bbuf := rfl
@[simp] theorem setOffset_bcnt (p : Nat) : (s.setOffset p).bcnt = s.bcnt := rfl
@[simp] theorem setOffset_base8 (p : Nat) : (s.setOffset p).base8 = s.base8 := rfl
@[simp] theorem setOffset_offset (p : Nat) : (s.setOffset p).offset = p := rfl
@[simp] theorem setOffset_sym (p : Nat) : (s.setOffset p).sym = s.sym := rfl
@[simp] theorem setOffset_record (p : Nat) : (s.setOffset p).record = s.record := rfl
@[simp] theorem setOffset_fidx (p : Nat) : (s.setOffset p).fidx = s.fidx := rfl
@[simp] theorem setOffset_xsum (p : Nat) : (s.setOffset p).xsum = s.xsum := rfl
@[simp] theorem setOffset_ie (p : Nat) : (s.setOffset p).ie = s.ie := rfl
@[simp] theorem setOffset_pend (p : Nat) : (s.setOffset p).pend = s.pend := rfl
@[simp] theorem setOffset_rdata (p : Nat) : (s.setOffset p).rdata = s.rdata := rfl
@[simp] theorem setOffset_schedule (p : Nat) : (s.setOffset p).schedule = s.schedule := rfl
@[simp] theorem setOffset_draws (p : Nat) : (s.setOffset p).draws = s.draws := rfl
@[simp] theorem setOffset_status (p : Nat) : (s.setOffset p).status = s.status := rfl

@[simp] theorem clearData_params : s.clearData.params = s.params := rfl
@[simp] theorem clearData_ibuf : s.clearData.ibuf = s.ibuf := rfl
@[simp] theorem clearData_icnt : s.clearData.icnt = 0 := rfl
@[simp] theorem clearData_bbuf : s.clearData.bbuf = s.bbuf := rfl
@[simp] theorem clearData_bcnt : s.clearData.bcnt = 0 := rfl
@[simp] theorem clearData_base8 : s.clearData.base8 = 0#32 := rfl
@[simp] theorem clearData_offset : s.clearData.offset = 0 := rfl
@[simp] theorem clearData_sym : s.clearData.sym = Vector.replicate 25 0#8 := rfl
@[simp] theorem clearData_record : s.clearData.record = Vector.replicate 25 0#8 := rfl
@[simp] theorem clearData_fidx : s.clearData.fidx = 0 := rfl
@[simp] theorem clearData_xsum : s.clearData.xsum = 0#8 := rfl
@[simp] theorem clearData_ie : s.clearData.ie = s.ie := rfl
@[simp] theorem clearData_pend : s.clearData.pend = s.pend := rfl
@[simp] theorem clearData_rdata : s.clearData.rdata = s.rdata := rfl
@[simp] theorem clearData_schedule : s.clearData.schedule = s.schedule := rfl
@[simp] theorem clearData_draws : s.clearData.draws = s.draws := rfl
@[simp] theorem clearData_busy : s.clearData.status.busy = s.status.busy := rfl
@[simp] theorem clearData_done : s.clearData.status.done = s.status.done := rfl
@[simp] theorem clearData_err : s.clearData.status.err = false := rfl
@[simp] theorem clearData_ovr : s.clearData.status.ovr = false := rfl
@[simp] theorem clearData_berr : s.clearData.status.berr = false := rfl
@[simp] theorem clearData_loc : s.clearData.status.loc = false := rfl
@[simp] theorem clearData_symv : s.clearData.status.symv = false := rfl
@[simp] theorem clearData_rvalid : s.clearData.status.rvalid = false := rfl
@[simp] theorem clearData_fcode : s.clearData.status.fcode = s.status.fcode := rfl

@[simp] theorem resetStep_params : s.resetStep.params = s.params := rfl
@[simp] theorem resetStep_ibuf : s.resetStep.ibuf = [] := rfl
@[simp] theorem resetStep_icnt : s.resetStep.icnt = 0 := rfl
@[simp] theorem resetStep_bbuf : s.resetStep.bbuf = [] := rfl
@[simp] theorem resetStep_bcnt : s.resetStep.bcnt = 0 := rfl
@[simp] theorem resetStep_base8 : s.resetStep.base8 = 0#32 := rfl
@[simp] theorem resetStep_offset : s.resetStep.offset = 0 := rfl
@[simp] theorem resetStep_sym : s.resetStep.sym = Vector.replicate 25 0#8 := rfl
@[simp] theorem resetStep_record : s.resetStep.record = Vector.replicate 25 0#8 := rfl
@[simp] theorem resetStep_fidx : s.resetStep.fidx = 0 := rfl
@[simp] theorem resetStep_xsum : s.resetStep.xsum = 0#8 := rfl
@[simp] theorem resetStep_ie : s.resetStep.ie = false := rfl
@[simp] theorem resetStep_pend : s.resetStep.pend = 0#32 := rfl
@[simp] theorem resetStep_rdata : s.resetStep.rdata = s.rdata := rfl
@[simp] theorem resetStep_schedule : s.resetStep.schedule = s.schedule := rfl
@[simp] theorem resetStep_draws : s.resetStep.draws = s.draws := rfl
@[simp] theorem resetStep_status : s.resetStep.status = .reset := rfl

@[simp] theorem dropTurn_params : s.dropTurn.params = s.params := rfl
@[simp] theorem dropTurn_ibuf : s.dropTurn.ibuf = s.ibuf := rfl
@[simp] theorem dropTurn_icnt : s.dropTurn.icnt = s.icnt := rfl
@[simp] theorem dropTurn_bbuf : s.dropTurn.bbuf = s.bbuf := rfl
@[simp] theorem dropTurn_bcnt : s.dropTurn.bcnt = s.bcnt := rfl
@[simp] theorem dropTurn_base8 : s.dropTurn.base8 = s.base8 := rfl
@[simp] theorem dropTurn_offset : s.dropTurn.offset = s.offset := rfl
@[simp] theorem dropTurn_sym : s.dropTurn.sym = s.sym := rfl
@[simp] theorem dropTurn_record : s.dropTurn.record = s.record := rfl
@[simp] theorem dropTurn_fidx : s.dropTurn.fidx = s.fidx := rfl
@[simp] theorem dropTurn_xsum : s.dropTurn.xsum = s.xsum := rfl
@[simp] theorem dropTurn_ie : s.dropTurn.ie = s.ie := rfl
@[simp] theorem dropTurn_pend : s.dropTurn.pend = s.pend := rfl
@[simp] theorem dropTurn_rdata : s.dropTurn.rdata = s.rdata := rfl
@[simp] theorem dropTurn_schedule : s.dropTurn.schedule = s.schedule.tail := rfl
@[simp] theorem dropTurn_draws : s.dropTurn.draws = s.draws := rfl
@[simp] theorem dropTurn_status : s.dropTurn.status = s.status := rfl

end Sys2Proof.Machine.State
end

