-- ==== Sys2Proof/Laws/Commands.lean ====
section
/-! SUPPORT. What each command's pseudocode can do, said once: in which case it goes on, in which it raises which fault, and the
state it leaves there.  Proofs cite these instead of unfolding a meaning. -/

namespace Sys2Proof.Machine

@[simp] theorem Run.finish_goesOn (s : State) : (Run.goesOn s).finish = s.complete := rfl

@[simp] theorem Run.finish_raised (s : State) (c : FCode) (n : Nat) : (Run.raised s c n).finish = s.raise c n := rfl

@[simp] theorem Run.andThen_goesOn (s : State) (f : State → Run) : (Run.goesOn s).andThen f = f s := rfl

@[simp] theorem Run.andThen_raised (s : State) (c : FCode) (n : Nat) (f : State → Run) :
    (Run.raised s c n).andThen f = .raised s c n := rfl

/-- Every command completes or raises: a run's finish is one of the two completions of R182 and R183. -/
theorem Run.finish_cases (r : Run) :
    (∃ s, r = .goesOn s ∧ r.finish = s.complete) ∨ (∃ s c n, r = .raised s c n ∧ r.finish = s.raise c n) := by
  cases r with
  | goesOn s => exact .inl ⟨s, rfl, rfl⟩
  | raised s c n => exact .inr ⟨s, c, n, rfl, rfl⟩

/-- `complete()` completes without a fault (R182). -/
theorem completedOk_complete (s : State) : CompletedOk s.complete := ⟨rfl, rfl, rfl⟩

/-- `raise` completes with its fault (R183). -/
theorem completedFault_raise (s : State) (c : FCode) (n : Nat) : CompletedFault (s.raise c n) c n := ⟨rfl, rfl, rfl, rfl, rfl⟩

/-- LDI (R110): IBUF full, or one interval appended. -/
theorem ldiBody_cases (v : Interval) (s : State) :
    (s.icnt = s.params.nInt ∧ ldiBody v s = .raised s .overflow s.icnt) ∨
      (s.icnt ≠ s.params.nInt ∧ ldiBody v s = .goesOn (s.appendInterval v)) := by
  unfold ldiBody; split
  · exact .inl ⟨‹_›, rfl⟩
  · exact .inr ⟨‹_›, rfl⟩

/-- LDB (R113): no room for all the bits, or all of them appended. -/
theorem ldbBody_cases (nb : BitVec 5) (d : BitVec 16) (s : State) :
    (s.bcnt + nb.toNat > s.params.nBit ∧ ldbBody nb d s = .raised s .overflow s.bcnt) ∨
      (s.bcnt + nb.toNat ≤ s.params.nBit ∧ ldbBody nb d s = .goesOn (s.appendBits (ldbBits nb d)).clearLocated) := by
  unfold ldbBody; split
  · exact .inl ⟨‹_›, rfl⟩
  · exact .inr ⟨by omega, rfl⟩

/-- DEC (R121): too few intervals, an interval in neither band, or a bitstream. -/
theorem decBody_cases (s : State) :
    (s.icnt < 10 ∧ decBody s = .raised (s.clearLocated.dropBits.setBase8 0) .shortInput s.icnt) ∨
      (10 ≤ s.icnt ∧ ∃ i b8, s.demod = .failed i b8 ∧
        decBody s = .raised (s.clearLocated.dropBits.setBase8 b8) .decode i) ∨
      (10 ≤ s.icnt ∧ ∃ bits b8, s.demod = .decoded bits b8 ∧
        decBody s = .goesOn ((s.clearLocated.replaceBits (warmup ++ bits)).setBase8 b8)) := by
  unfold decBody
  simp only [Profile.warmupBits]
  by_cases hn : s.icnt < 10
  · exact .inl ⟨hn, if_pos hn⟩
  · refine .inr ?_
    rw [if_neg hn]
    cases h : s.demod with
    | failed i b8 => exact .inl ⟨by omega, i, b8, rfl, rfl⟩
    | decoded bits b8 => exact .inr ⟨by omega, bits, b8, rfl, rfl⟩

/-- FND (R141, R144): no sentinel, too short a window, or a located window. -/
theorem fndBody_cases (s : State) :
    (NoSentinel s.bbuf s.bcnt ∧ fndBody s = .raised (s.clearLocated.setOffset 0) .noSentinel s.bcnt) ∨
      (∃ p, FirstSentinelAt s.bbuf s.bcnt p ∧ s.bcnt - p < 200 ∧
        fndBody s = .raised (s.clearLocated.setOffset p) .shortWindow (s.bcnt - p)) ∨
      (∃ p, FirstSentinelAt s.bbuf s.bcnt p ∧ 200 ≤ s.bcnt - p ∧ fndBody s = .goesOn (s.clearLocated.setOffset p).setLoc) := by
  unfold fndBody
  cases h : firstSentinel s.bbuf s.bcnt with
  | none => exact .inl ⟨firstSentinel_eq_none.1 h, rfl⟩
  | some p =>
    refine .inr ?_
    have hp := firstSentinel_eq_some.1 h
    simp only [Profile.windowBits]
    by_cases hw : s.bcnt - p < 200
    · exact .inl ⟨p, hp, hw, if_pos hw⟩
    · exact .inr ⟨p, hp, by omega, if_neg hw⟩

/-- EXT (R145): out of sequence, or the window sliced. -/
theorem extBody_cases (s : State) :
    (s.status.loc = false ∧ extBody s = .raised s .sequence 0) ∨
      (s.status.loc = true ∧ extBody s = .goesOn (s.setSym (sliceWindow s.bbuf s.offset)).setSymv) := by
  unfold extBody
  cases h : s.status.loc with
  | false => exact .inl ⟨rfl, rfl⟩
  | true => exact .inr ⟨rfl, rfl⟩

/-- CHK (R160): out of sequence, the first check that fails, or the record. -/
theorem chkBody_cases (s : State) :
    (s.status.symv = false ∧ chkBody s = .raised s .sequence 0) ∨
      (s.status.symv = true ∧ s.sym.at 0 ≠ rev8 (s.sym.at 24) ∧ chkBody s = .raised (s.setRvalid false) .mirror0 0) ∨
      (s.status.symv = true ∧ s.sym.at 0 = rev8 (s.sym.at 24) ∧ ∃ i, firstMirrorFault s.sym = some i ∧
        chkBody s = .raised (s.setRvalid false) .mirror i) ∨
      (s.status.symv = true ∧ s.sym.at 0 = rev8 (s.sym.at 24) ∧ firstMirrorFault s.sym = none ∧
        checksum s.sym ≠ s.sym.at 13 ∧
        chkBody s = .raised ((s.setRvalid false).setXsum (checksum s.sym)) .checksum 13) ∨
      (s.status.symv = true ∧ s.sym.at 0 = rev8 (s.sym.at 24) ∧ firstMirrorFault s.sym = none ∧
        checksum s.sym = s.sym.at 13 ∧
        chkBody s = .goesOn ((((s.setRvalid false).setXsum (checksum s.sym)).setRecord (invertAll s.sym)).setRvalid true)) := by
  unfold chkBody
  cases hs : s.status.symv with
  | false => exact .inl ⟨rfl, rfl⟩
  | true =>
    refine .inr ?_
    cases hr : reversalHolds s.sym with
    | false =>
      have : s.sym.at 0 ≠ rev8 (s.sym.at 24) := fun h => by simp [(reversalHolds_iff _).2 h] at hr
      exact .inl ⟨rfl, this, rfl⟩
    | true =>
      have h0 := (reversalHolds_iff _).1 hr
      refine .inr ?_
      cases hm : firstMirrorFault s.sym with
      | some i => exact .inl ⟨rfl, h0, i, rfl, rfl⟩
      | none =>
        refine .inr ?_
        by_cases hx : checksum s.sym = s.sym.at 13
        · refine .inr ⟨rfl, h0, rfl, hx, ?_⟩
          exact if_neg (Decidable.not_not.2 hx)
        · refine .inl ⟨rfl, h0, rfl, hx, ?_⟩
          exact if_pos hx

/-- VAL (R166): FND's fault, or CHK on the window FND locates and EXT slices. -/
theorem execVal_cases (s : State) :
    (NoSentinel s.bbuf s.bcnt ∧ execVal s = .next ((s.clearLocated.setOffset 0).raise .noSentinel s.bcnt)) ∨
      (∃ p, FirstSentinelAt s.bbuf s.bcnt p ∧ s.bcnt - p < 200 ∧
        execVal s = .next ((s.clearLocated.setOffset p).raise .shortWindow (s.bcnt - p))) ∨
      (∃ p, FirstSentinelAt s.bbuf s.bcnt p ∧ 200 ≤ s.bcnt - p ∧
        execVal s = .next (chkBody ((s.clearLocated.setOffset p).setLoc.setSym (sliceWindow s.bbuf p)).setSymv).finish) := by
  unfold execVal valBody
  rcases fndBody_cases s with ⟨h, e⟩ | ⟨p, h, hw, e⟩ | ⟨p, h, hw, e⟩
  · exact .inl ⟨h, by rw [e]; rfl⟩
  · exact .inr (.inl ⟨p, h, hw, by rw [e]; rfl⟩)
  · refine .inr (.inr ⟨p, h, hw, ?_⟩)
    rw [e, Run.andThen_goesOn]
    rcases extBody_cases (s.clearLocated.setOffset p).setLoc with ⟨hl, -⟩ | ⟨-, e'⟩
    · cases hl
    · rw [e', Run.andThen_goesOn]; rfl

end Sys2Proof.Machine
end

