-- ==== Sys2Proof/Laws/Decode.lean ====
section
/-! SUPPORT. The fields of an encoded command, and what the decoder answers for a word by its opcode (spec/30_encoding.md R81 to
R87). -/

namespace Sys2Proof

/-- The opcode of a command's word (R85). -/
def Instr.op : Instr → BitVec 4
  | .nop => 0x0#4
  | .clr => 0x1#4
  | .ldi _ => 0x2#4
  | .ldb _ _ => 0x3#4
  | .dec => 0x4#4
  | .fnd => 0x5#4
  | .ext => 0x6#4
  | .chk => 0x7#4
  | .val => 0x8#4

@[simp] theorem opField_append (op : BitVec 4) (v : BitVec 28) : opField (op ++ v) = op := by
  apply BitVec.eq_of_getLsbD_eq
  intro k hk
  simp only [opField, BitVec.getLsbD_extractLsb', hk, BitVec.getLsbD_append]
  simp

@[simp] theorem operandField_append (op : BitVec 4) (v : BitVec 28) : operandField (op ++ v) = v := by
  apply BitVec.eq_of_getLsbD_eq
  intro k hk
  simp only [operandField, BitVec.getLsbD_extractLsb', hk, BitVec.getLsbD_append]
  simp [hk]

theorem opField_ldb (nb : BitVec 5) (d : BitVec 16) : opField (encode (.ldb nb d)) = 0x3#4 := by
  apply BitVec.eq_of_getLsbD_eq
  intro k hk
  simp only [opField, encode, BitVec.getLsbD_extractLsb', hk, BitVec.getLsbD_append]
  grind

theorem ldbZeroField_ldb (nb : BitVec 5) (d : BitVec 16) : ldbZeroField (encode (.ldb nb d)) = 0#7 := by
  apply BitVec.eq_of_getLsbD_eq
  intro k hk
  simp only [ldbZeroField, encode, BitVec.getLsbD_extractLsb', hk, BitVec.getLsbD_append]
  grind

theorem nbField_ldb (nb : BitVec 5) (d : BitVec 16) : nbField (encode (.ldb nb d)) = nb := by
  apply BitVec.eq_of_getLsbD_eq
  intro k hk
  simp only [nbField, encode, BitVec.getLsbD_extractLsb', hk, BitVec.getLsbD_append]
  grind

theorem bdataField_ldb (nb : BitVec 5) (d : BitVec 16) : bdataField (encode (.ldb nb d)) = d := by
  apply BitVec.eq_of_getLsbD_eq
  intro k hk
  simp only [bdataField, encode, BitVec.getLsbD_extractLsb', hk, BitVec.getLsbD_append]
  grind

/-- A word is its opcode and its operand (R80). -/
theorem word_eq_append (w : Word) : w = opField w ++ operandField w := by
  apply BitVec.eq_of_getLsbD_eq
  intro k hk
  simp only [opField, operandField, BitVec.getLsbD_append, BitVec.getLsbD_extractLsb']
  grind

/-- What format N's decoding answers (R81). -/
theorem decodeN_eq (i : Instr) (w : Word) : (operandField w = 0#28 ∧ decodeN i w = .instr i) ∨
    (operandField w ≠ 0#28 ∧ decodeN i w = .illegal .operandNotZero) := by
  unfold decodeN; split
  · exact .inl ⟨‹_›, rfl⟩
  · exact .inr ⟨‹_›, rfl⟩

/-- What LDB's decoding answers (R83). -/
theorem decodeB_cases (w : Word) :
    ((Instr.ldb (nbField w) (bdataField w)).WellFormed ∧ ldbZeroField w = 0#7 ∧
        decodeB w = .instr (.ldb (nbField w) (bdataField w))) ∨
      (¬((Instr.ldb (nbField w) (bdataField w)).WellFormed ∧ ldbZeroField w = 0#7) ∧ ∃ why, decodeB w = .illegal why) := by
  simp only [Instr.WellFormed, Instr.wellFormed, Bool.and_eq_true, decide_eq_true_eq, beq_iff_eq]
  unfold decodeB
  grind

end Sys2Proof
end

