-- ==== Sys2Proof/Laws/HostPort.lean ====
section
/-! SUPPORT. What a host access can do, said once (spec/20_memory.md R60 to R65). -/

namespace Sys2Proof.Machine

/-- The constraints of R8, written out. -/
theorem legal_iff (p : Config.Params) : p.legal = true ↔
    10 ≤ p.nInt ∧ p.nInt ≤ 65536 ∧ p.nInt ≤ p.nBit ∧ p.nBit ≤ 65536 ∧ 200 ≤ p.nBit := decide_eq_true_iff

/-- A 4-byte access to 0x00004 reaches CMD (R51). -/
@[simp] theorem supported_cmd (p : Config.Params) : supported p 0x00004#20 4 = some .cmd := rfl

/-- A 4-byte access to 0x00008 reaches STATUS (R51). -/
@[simp] theorem supported_status (p : Config.Params) : supported p 0x00008#20 4 = some .status := rfl

/-- A 4-byte access to 0x0000C reaches CTRL (R51). -/
@[simp] theorem supported_ctrl (p : Config.Params) : supported p 0x0000C#20 4 = some .ctrl := rfl

/-- Where SYMW stands in the map (R51). -/
theorem regAt_symw (p : Config.Params) {k : Nat} (h : k < 7) : regAt p (0x40 + 4 * k) = some (.symw k) := by
  unfold regAt
  rw [if_neg (by omega), if_pos (by omega), if_pos (by show _ < 7; omega), show (0x40 + 4 * k - 0x40) / 4 = k by omega]

/-- Where RECW stands in the map (R51). -/
theorem regAt_recw (p : Config.Params) {k : Nat} (h : k < 7) : regAt p (0x60 + 4 * k) = some (.recw k) := by
  unfold regAt
  rw [if_neg (by omega), if_neg (by omega), if_pos (by omega), if_pos (by show _ < 7; omega),
    show (0x60 + 4 * k - 0x60) / 4 = k by omega]

/-- Where BWIN stands in the map; it ends below IWIN at every legal N_BIT (R51). -/
theorem regAt_bwin {p : Config.Params} (hp : p.legal = true) {k : Nat} (h : k < bwinWords p) :
    regAt p (0x10000 + 4 * k) = some (.bwin k) := by
  have hk : k < (p.nBit + 31) / 32 := h
  have hn : p.nBit ≤ 65536 := (of_decide_eq_true hp).2.2.2.1
  unfold regAt
  rw [if_neg (by omega), if_neg (by omega), if_neg (by omega), if_neg (by omega), if_pos (by omega),
    show (0x10000 + 4 * k - 0x10000) / 4 = k by omega, if_pos h]

/-- Where IWIN stands in the map (R51). -/
theorem regAt_iwin {p : Config.Params} {k : Nat} (h : k < p.nInt) : regAt p (0x40000 + 4 * k) = some (.iwin k) := by
  unfold regAt
  rw [if_neg (by omega), if_neg (by omega), if_neg (by omega), if_neg (by omega), if_neg (by omega),
    show (0x40000 + 4 * k - 0x40000) / 4 = k by omega, if_pos h]

/-- What a read while BUSY = 1 does (R65). -/
theorem readBusy_cases (s : State) (r : Reg) :
    (r.exactWhileBusy = true ∧ s.readBusy r = s.returnWord (s.readReg r)) ∨
      (r = .status ∧ s.readBusy r = s.drawRead.returnWord (s.status.busyWord (Config.freeWord s.draws))) ∨
      (r.exactWhileBusy = false ∧ r ≠ .status ∧ s.readBusy r = s.drawRead) := by
  unfold State.readBusy
  cases h : r.exactWhileBusy with
  | true => exact .inl ⟨rfl, rfl⟩
  | false =>
    by_cases h2 : r = .status
    · exact .inr (.inl ⟨h2, if_pos h2⟩)
    · exact .inr (.inr ⟨rfl, h2, if_neg h2⟩)

/-- What `MemRead` does (R60): an unsupported access, a read while busy, or the register's value. -/
theorem memRead_cases (s : State) (a : Addr) (n : Nat) :
    (supported s.params a n = none ∧ s.memRead a n = s.setBerr.returnWord 0#32) ∨
      (∃ r, supported s.params a n = some r ∧ s.status.busy = true ∧ s.memRead a n = s.readBusy r) ∨
      (∃ r, supported s.params a n = some r ∧ s.status.busy = false ∧ s.memRead a n = s.returnWord (s.readReg r)) := by
  unfold State.memRead
  cases h : supported s.params a n with
  | none => exact .inl ⟨rfl, rfl⟩
  | some r =>
    cases hb : s.status.busy with
    | true => exact .inr (.inl ⟨r, rfl, rfl, rfl⟩)
    | false => exact .inr (.inr ⟨r, rfl, rfl, rfl⟩)

/-- A read changes `rdata` and the count of draws, and BERR if it is unsupported; nothing else (R59, R63). -/
theorem memRead_changes (s : State) (a : Addr) (n : Nat) : ∃ w d, s.memRead a n = { s with rdata := w, draws := d } ∨
    s.memRead a n = { s.setBerr with rdata := w, draws := d } := by
  rcases memRead_cases s a n with ⟨-, h⟩ | ⟨r, -, -, h⟩ | ⟨r, -, -, h⟩
  · exact ⟨0#32, s.draws, .inr h⟩
  · rcases readBusy_cases s r with ⟨-, h'⟩ | ⟨-, h'⟩ | ⟨-, -, h'⟩
    · exact ⟨_, s.draws, .inl (h.trans h')⟩
    · exact ⟨_, s.draws + 1, .inl (h.trans h')⟩
    · exact ⟨_, s.draws + 1, .inl (h.trans h')⟩
  · exact ⟨_, s.draws, .inl h⟩

/-- What `MemWrite` does (R53 to R55, R61 to R63). -/
theorem memWrite_cases (s : State) (a : Addr) (n : Nat) (v : Word) :
    (supported s.params a n = none ∧ s.memWrite a n v = s.setBerr) ∨
      (supported s.params a n = some .cmd ∧ s.status.busy = true ∧ s.memWrite a n v = s.setOvr) ∨
      (supported s.params a n = some .cmd ∧ s.status.busy = false ∧ s.memWrite a n v = s.accept v) ∨
      (supported s.params a n = some .status ∧ v.getLsbD 1 = true ∧ s.memWrite a n v = s.clearDone) ∨
      (supported s.params a n = some .status ∧ v.getLsbD 1 = false ∧ s.memWrite a n v = s) ∨
      (supported s.params a n = some .ctrl ∧ s.memWrite a n v = s.writeCtrl v) ∨
      (∃ r, supported s.params a n = some r ∧ r ≠ .cmd ∧ r ≠ .status ∧ r ≠ .ctrl ∧ s.memWrite a n v = s) := by
  unfold State.memWrite
  cases h : supported s.params a n with
  | none => exact .inl ⟨rfl, rfl⟩
  | some r =>
    refine .inr ?_
    cases r with
    | cmd =>
      cases hb : s.status.busy with
      | true => exact .inl ⟨rfl, rfl, by simp [State.writeCmd, hb]⟩
      | false => exact .inr (.inl ⟨rfl, rfl, by simp [State.writeCmd, hb]⟩)
    | status =>
      refine .inr (.inr ?_)
      cases hv : v.getLsbD 1 with
      | true => exact .inl ⟨rfl, rfl, by simp only [State.writeStatus, hv, ite_true]⟩
      | false => exact .inr (.inl ⟨rfl, rfl, by simp only [State.writeStatus, hv, Bool.false_eq_true, ite_false]⟩)
    | ctrl => exact .inr (.inr (.inr (.inr (.inl ⟨rfl, rfl⟩))))
    | _ => exact .inr (.inr (.inr (.inr (.inr ⟨_, rfl, by simp, by simp, by simp, rfl⟩))))

end Sys2Proof.Machine
end

