-- ==== Sys2Proof/Laws/Step.lean ====
section
/-! SUPPORT. What each command's meaning is, and what a step can do, said once (spec/60_exceptions.md R181, R187). -/

namespace Sys2Proof.Machine

/-- The pseudocode of a command, up to its `complete()` or `raise`. -/
def bodyOf (i : Instr) (s : State) : Run :=
  match i with
  | .nop => .goesOn s
  | .clr => .goesOn s.clearData
  | .ldi v => ldiBody v s
  | .ldb nb d => ldbBody nb d s
  | .dec => decBody s
  | .fnd => fndBody s
  | .ext => extBody s
  | .chk => chkBody s
  | .val => valBody s

/-- A command's meaning is its pseudocode with its completion, and always a next state. -/
theorem exec_eq_body (i : Instr) (s : State) : exec i s = .next (bodyOf i s).finish := by
  cases i <;> rfl

/-- The engine's turn with a command pending: the command's meaning, or the illegal word's fault (R181, R187). -/
theorem engineTurn_busy {s : State} (h : s.status.busy = true) :
    (∃ i, decode s.pend = .instr i ∧ s.engineTurn = exec i s) ∨
      (∃ why, decode s.pend = .illegal why ∧ s.engineTurn = .next (s.raise .illegal 0)) := by
  simp only [State.engineTurn, h, State.executePending, ite_true]
  cases hd : decode s.pend with
  | instr i => exact .inl ⟨i, rfl, rfl⟩
  | illegal why => exact .inr ⟨why, rfl, rfl⟩

/-- The engine has no step while BUSY = 0 (R181). -/
theorem engineTurn_idle {s : State} (h : s.status.busy = false) : s.engineTurn = .next s := by
  simp [State.engineTurn, h]

/-- A step with an empty schedule is the engine's turn. -/
theorem step_nil {s : State} (h : s.schedule = []) : step s = s.engineTurn := by simp [step, h]

/-- A step takes the schedule's first turn. -/
theorem step_cons {s : State} {t : Turn} {rest : List Turn} (h : s.schedule = t :: rest) :
    step s = s.dropTurn.takeTurn t := by simp [step, h]

/-- Whoever moves, a step is a turn of the engine, a host access or a reset, from the state with that turn dropped. -/
theorem step_cases (s : State) :
    (s.schedule = [] ∧ step s = s.engineTurn) ∨ (∃ rest, s.schedule = .engine :: rest ∧ step s = s.dropTurn.engineTurn) ∨
      (∃ a rest, s.schedule = .host a :: rest ∧ step s = .next (s.dropTurn.access a)) ∨
      (∃ a rest, s.schedule = .reset a :: rest ∧ step s = .next (s.dropTurn.resetWith a)) := by
  cases h : s.schedule with
  | nil => exact .inl ⟨rfl, step_nil h⟩
  | cons t rest =>
    cases t with
    | engine => exact .inr (.inl ⟨rest, rfl, step_cons h⟩)
    | host a => exact .inr (.inr (.inl ⟨a, rest, rfl, step_cons h⟩))
    | reset a => exact .inr (.inr (.inr ⟨a, rest, rfl, step_cons h⟩))

/-- A run of no steps. -/
theorem run_zero (s : State) : Sys2Proof.core.run 0 s = .next s := rfl

/-- A run whose first step answers a next state goes on from there. -/
theorem run_succ (k : Nat) {s t : State} (h : step s = .next t) : Sys2Proof.core.run (k + 1) s = Sys2Proof.core.run k t := by
  have h' : Sys2Proof.core.step s = .next t := h
  simp only [Host.Core.run, h']

/-- A reset turn is the reset step, with any word on `rdata` where a read coincides (R201). -/
theorem resetWith_cases (s : State) (a : Option Access) :
    s.resetWith a = s.resetStep ∨ (∃ x n, a = some (.read x n)) ∧ s.resetWith a = s.resetStep.drawRead := by
  match a with
  | none => exact .inl rfl
  | some (.read x n) => exact .inr ⟨⟨x, n, rfl⟩, rfl⟩
  | some (.write ..) => exact .inl rfl

end Sys2Proof.Machine
end

