-- ==== Sys2Proof/Laws/HostProgram.lean ====
section
/-! SUPPORT. What the lines of a host program can be, and when a run has ended (spec/30_encoding.md R91, R211). -/

namespace Sys2Proof.Machine

/-- A name gives a turn exactly when R51 has its register. -/
theorem named_eq_some {q : Config.Params} {r : Reg} {turn : Turn} {ts : List Turn} :
    named q r turn = some ts ↔ r.mapped q = true ∧ ts = [turn] := by
  unfold named
  split
  · next h => exact ⟨fun e => ⟨h, (Option.some.inj e).symm⟩, fun e => by rw [e.2]⟩
  · next h => exact ⟨nofun, fun e => absurd e.1 h⟩

/-- R211 in words: no turn to come holds a host access, and no command is pending. -/
theorem runEnded_iff (s : State) :
    s.runEnded = true ↔ (∀ turn ∈ s.schedule, turn.hasAccess = false) ∧ s.status.busy = false := by
  simp [State.runEnded]

/-- A run stops at the first state in which it has ended. -/
theorem endOfRun_of_ended (fuel : Nat) {s : State} (h : s.runEnded = true) : s.endOfRun fuel = some s := by
  cases fuel <;> simp [State.endOfRun, h]

/-- Before its end, a run goes on with a step. -/
theorem endOfRun_step (fuel : Nat) {s t : State} (h : s.runEnded = false) (ht : step s = .next t) :
    s.endOfRun (fuel + 1) = t.endOfRun fuel := by simp [State.endOfRun, h, ht]

/-- Where a run's end is found, the run has ended there. -/
theorem runEnded_endOfRun : ∀ (fuel : Nat) {s t : State}, s.endOfRun fuel = some t → t.runEnded = true := by
  intro fuel
  induction fuel with
  | zero => intro s t h; simp only [State.endOfRun] at h; split at h <;> simp_all
  | succ n ih =>
    intro s t h
    simp only [State.endOfRun] at h
    split at h
    · simp_all
    · split at h
      · exact ih h
      · cases h

end Sys2Proof.Machine
end

