-- ==== Sys2Proof/Laws/PerInstr.lean ====
section
/-! SUPPORT. Statements made per instruction: the word of each command is a word of its row of spec/opcode_table.json. -/

namespace Sys2Proof.Laws.TableRow

/-- The `mask` of the row of a command (spec/opcode_table.json; R85). -/
def mask : Instr → Word
  | .nop => 0xFFFFFFFF#32
  | .clr => 0xFFFFFFFF#32
  | .ldi _ => 0xF0000000#32
  | .ldb _ _ => 0xFFE00000#32
  | .dec => 0xFFFFFFFF#32
  | .fnd => 0xFFFFFFFF#32
  | .ext => 0xFFFFFFFF#32
  | .chk => 0xFFFFFFFF#32
  | .val => 0xFFFFFFFF#32

/-- The `match` of the row of a command (spec/opcode_table.json; R85). -/
def pattern : Instr → Word
  | .nop => 0x00000000#32
  | .clr => 0x10000000#32
  | .ldi _ => 0x20000000#32
  | .ldb _ _ => 0x30000000#32
  | .dec => 0x40000000#32
  | .fnd => 0x50000000#32
  | .ext => 0x60000000#32
  | .chk => 0x70000000#32
  | .val => 0x80000000#32

/-- The command's word has the fixed bits of its row. -/
def Statement (i : Instr) : Prop := encode i &&& mask i = pattern i

theorem nop : Statement .nop := by unfold Statement; decide
theorem clr : Statement .clr := by unfold Statement; decide
theorem ldi (ival : Interval) : Statement (.ldi ival) := by
  unfold Statement
  show (0x2#4 ++ ival : BitVec 32) &&& (0xF#4 ++ 0x0#28 : BitVec 32) = (0x2#4 ++ 0x0#28 : BitVec 32)
  rw [BitVec.and_append]; simp
theorem ldb (nb : BitVec 5) (bdata : BitVec 16) : Statement (.ldb nb bdata) := by
  unfold Statement
  show (0x3#4 ++ 0#7 ++ nb ++ bdata : BitVec 32) &&& (0xF#4 ++ 0x7F#7 ++ 0#5 ++ 0#16 : BitVec 32) =
    (0x3#4 ++ 0#7 ++ 0#5 ++ 0#16 : BitVec 32)
  rw [BitVec.and_append, BitVec.and_append, BitVec.and_append]; simp
theorem dec : Statement .dec := by unfold Statement; decide
theorem fnd : Statement .fnd := by unfold Statement; decide
theorem ext : Statement .ext := by unfold Statement; decide
theorem chk : Statement .chk := by unfold Statement; decide
theorem val : Statement .val := by unfold Statement; decide

end Sys2Proof.Laws.TableRow
end

