-- ==== Sys2Proof/Tests/Slice0.lean ====
section
/-! SUPPORT. Tests: ill-formed terms that the check refuses, words written out from the encodings of spec/30_encoding.md, one-step
tests whose results stand in spec/95_test_vectors.md, and for every statement with hypotheses a state that meets them. -/

namespace Sys2Proof.Tests

open Sys2Proof.Machine

/-! ## Well-formedness -/

theorem test_wellFormed_refuses_nb_0 : Instr.wellFormed (.ldb 0#5 0#16) = false := by decide
theorem test_wellFormed_refuses_nb_17 : Instr.wellFormed (.ldb 17#5 0#16) = false := by decide
theorem test_wellFormed_refuses_data_above_nb : Instr.wellFormed (.ldb 1#5 2#16) = false := by decide
theorem test_wellFormed_accepts_full_nb : Instr.wellFormed (.ldb 16#5 0xFFFF#16) = true := by decide

/-! ## Decoding: the words of section 2 of spec/95_test_vectors.md -/

theorem test_decode_nop : decode 0x00000000#32 = .instr .nop := by decide
theorem test_decode_clr : decode 0x10000000#32 = .instr .clr := by decide
theorem test_decode_ldi_0 : decode 0x20000000#32 = .instr (.ldi 0#28) := by decide
theorem test_decode_ldi_20 : decode 0x20000014#32 = .instr (.ldi 20#28) := by decide
theorem test_decode_ldi_largest : decode 0x2FFFFFFF#32 = .instr (.ldi 0x0FFFFFFF#28) := by decide
theorem test_decode_ldb_1 : decode 0x30010001#32 = .instr (.ldb 1#5 1#16) := by decide
theorem test_decode_ldb_sentinel : decode 0x300800FE#32 = .instr (.ldb 8#5 0xFE#16) := by decide
theorem test_decode_ldb_16 : decode 0x3010FFFF#32 = .instr (.ldb 16#5 0xFFFF#16) := by decide
theorem test_decode_dec : decode 0x40000000#32 = .instr .dec := by decide
theorem test_decode_fnd : decode 0x50000000#32 = .instr .fnd := by decide
theorem test_decode_ext : decode 0x60000000#32 = .instr .ext := by decide
theorem test_decode_chk : decode 0x70000000#32 = .instr .chk := by decide
theorem test_decode_val : decode 0x80000000#32 = .instr .val := by decide
theorem test_decode_illegal_operand :
    decode 0x00000001#32 = .illegal .operandNotZero ∧ decode 0x0F000000#32 = .illegal .operandNotZero ∧
      decode 0x10000001#32 = .illegal .operandNotZero ∧ decode 0x40000010#32 = .illegal .operandNotZero ∧
      decode 0x80000001#32 = .illegal .operandNotZero := by decide
theorem test_decode_illegal_ldb :
    decode 0x30010002#32 = .illegal .ldbData ∧ decode 0x30110000#32 = .illegal .ldbCount ∧
      decode 0x30000000#32 = .illegal .ldbCount ∧ decode 0x30200001#32 = .illegal .ldbReservedBits := by decide
theorem test_decode_reserved_opcode :
    decode 0x90000000#32 = .illegal .reservedOpcode ∧ decode 0xA0000000#32 = .illegal .reservedOpcode ∧
      decode 0xF0000000#32 = .illegal .reservedOpcode ∧ decode 0xFFFFFFFF#32 = .illegal .reservedOpcode := by decide
theorem test_encode_words :
    encode (.ldi 20#28) = 0x20000014#32 ∧ encode (.ldb 16#5 0xFE01#16) = 0x3010FE01#32 ∧ encode .val = 0x80000000#32 := by decide
theorem test_decodeTableWord : decodeTableWord 32 0x300800FE = some (.ldb 8#5 0xFE#16) ∧ decodeTableWord 32 0x90000000 = none := by
  decide

/-! ## The assembler: the examples of section 2 of spec/95_test_vectors.md -/

/-- The words of a command line given as text. -/
def wordsOf (text : String) : Option (List Word) :=
  match parseLine text.toList with
  | some (.cmd a) => assemble a
  | _ => none

theorem test_asm_lines :
    wordsOf "ldi 20 ; twenty" = some [0x20000014#32] ∧ wordsOf "LDB 16, 0xFE01" = some [0x3010FE01#32] ∧
      wordsOf "LDBYTE 0x7F" = some [0x3008007F#32] ∧ wordsOf "LDIR 10, 2" = some [0x2000000A#32, 0x2000000A#32] ∧
      wordsOf ".word 0x90000000" = some [0x90000000#32] := by decide
theorem test_asm_ldbits : wordsOf "LDBITS \"11111110000000010\"" = some [0x3010FE01#32, 0x30010000#32] := by decide
theorem test_asm_rejects : wordsOf "LDB 1, 2" = none ∧ wordsOf "LDI 268435456" = none ∧ wordsOf "LDB 17, 0" = none := by
  decide
theorem test_asm_host_lines :
    parseLine "RD BWIN[0]".toList = some (.rd (.bwin 0)) ∧ parseLine "RAW CMD, 0x20000015".toList = some (.raw .cmd 0x20000015) ∧
      parseLine "WAIT".toList = some .wait := by decide

/-! ## States to test on -/

/-- The state an outcome leaves. -/
def after : Outcome → State
  | .next t => t
  | .fault _ => State.reset
  | .refused _ => State.reset

/-- After reset, with N_INT = 10 and N_BIT = 200: the smallest block of R8. -/
def small : State := State.resetOf { nInt := 10, nBit := 200 }

/-- An array holding `vs` from index 0 on, in its canonical form. -/
def bufferOf {w : Nat} (vs : List (BitVec w)) : Buffer w := vs.zipIdx.filterMap fun c => if c.1 = 0#w then none else some (c.2, c.1)

/-- Reset, then intervals loaded. -/
def withIntervals (xs : List Nat) : State := { State.reset with ibuf := bufferOf (xs.map (BitVec.ofNat 28)), icnt := xs.length }

/-- Reset, then bits loaded. -/
def withBits (bits : List Bit) : State := { State.reset with bbuf := bufferOf bits, bcnt := bits.length }

/-- The bits of symbols, each most significant bit first (R12). -/
def bitsOf (symbols : List Nat) : List Bit := symbols.flatMap fun v => (List.range 8).map fun k => BitVec.ofBool (v.testBit (7 - k))

/-- The reference window W1 of spec/95_test_vectors.md section 8, with symbols 3, 11, 12, 13 and 24 to choose. -/
def window (s3 s11 s12 s13 s24 : Nat) : List Nat :=
  [0xFE, 1, 2, s3, 4, 5, 6, 7, 8, 9, 0x0A, s11, s12, s13, 0x0A, 9, 8, 7, 6, 5, 4, 3, 2, 1, s24]

/-- Vector W1. -/
def w1 : List Nat := window 3 0xF4 0x55 0xF4 0x7F

/-- Ten intervals of 20: the "W" of spec/95_test_vectors.md. -/
def warm : List Nat := List.replicate 10 20

/-- The 25 symbol registers holding a window. -/
def symbolsOf (symbols : List Nat) : Symbols := Vector.ofFn fun j => BitVec.ofNat 8 (symbols.getD j.val 0)

/-- W1 loaded, and what FND, then EXT, then CHK leave of it by spec/95_test_vectors.md section 8. -/
def loaded : State := withBits (bitsOf w1)
def found : State := { loaded with status := { Status.reset with done := true, loc := true } }
def sliced : State := { loaded with sym := symbolsOf w1, status := { Status.reset with done := true, loc := true, symv := true } }
def checked : State :=
  { loaded with
    sym := symbolsOf w1, xsum := 0xF4#8, record := symbolsOf (w1.map (255 - ·)),
    status := { Status.reset with done := true, loc := true, symv := true, rvalid := true } }

/-- A command is pending. -/
def pending (w : Word) (s : State) : State := s.accept w

/-! ## One step on words a host accepts (section 10, P5, and the opcode table) -/

theorem test_step_runs_ldi : (after (step (State.reset.withFetchWord 32 0x20000014))).icnt = 1 := by decide
theorem test_step_illegal :
    (after (step (pending 0x90000000#32 State.reset))).readReg .status = 0x106#32 ∧
      (after (step (pending 0x90000000#32 State.reset))).fidx = 0 := by decide

/-! ## Reset and control (section 3) -/

theorem test_reset_registers :
    State.reset.readReg .id = 0x42445631#32 ∧ State.reset.readReg .status = 0#32 ∧ State.reset.readReg .nint = 0x10000#32 ∧
      State.reset.readReg .nbit = 0x10000#32 ∧ State.reset.readReg (.bwin 0) = 0#32 ∧ State.reset.irq = false := by decide

/-- K2 and R100. -/
def k2 : State :=
  { State.reset with status := { Status.reset with done := true, err := true, loc := true, symv := true, fcode := .checksum } }

theorem test_status_word_k2 : k2.readReg .status = 0x966#32 := by decide
theorem test_nop_k2 : (after (exec .nop k2)).readReg .status = 0x066#32 := by decide
theorem test_clr_k3 :
    (after (exec .clr { checked with ie := true })).readReg .status = 0x002#32 ∧
      (after (exec .clr { checked with ie := true })).irq = true := by decide
theorem test_clr_k4 :
    (after (exec .clr checked)).readReg (.recw 0) = 0#32 ∧ (after (exec .clr checked)).readReg (.symw 0) = 0#32 ∧
      (after (exec .clr checked)).xsum = 0#8 := by decide

/-! ## Loading (section 4) -/

theorem test_ldi_largest : (after (exec (.ldi 0x0FFFFFFF#28) State.reset)).readReg (.iwin 0) = 0x0FFFFFFF#32 := by decide
theorem test_ldi_overflow :
    (after (exec (.ldi 20#28) { small with icnt := 10 })).readReg .status = 0x206#32 ∧
      (after (exec (.ldi 20#28) { small with icnt := 10 })).fidx = 10 := by decide
theorem test_ldb_l4 :
    (after (exec (.ldb 8#5 0xFE#16) State.reset)).readReg (.bwin 0) = 0xFE000000#32 ∧
      (after (exec (.ldb 8#5 0xFE#16) State.reset)).bcnt = 8 := by decide
theorem test_ldb_overflow :
    (after (exec (.ldb 16#5 0#16) { small with bcnt := 192 })).readReg .status = 0x206#32 ∧
      (after (exec (.ldb 16#5 0#16) { small with bcnt := 192 })).bcnt = 192 ∧
      (after (exec (.ldb 8#5 0#16) { small with bcnt := 192 })).bcnt = 200 := by decide

/-! ## The demodulator (section 5) -/

theorem test_dec_v16 :
    (after (exec .dec (withIntervals (warm ++ [22, 24, 26, 28, 30, 12, 13, 20, 20])))).readReg (.bwin 0) = 0x00010000#32 ∧
      (after (exec .dec (withIntervals (warm ++ [22, 24, 26, 28, 30, 12, 13, 20, 20])))).base8 = 200#32 := by decide
theorem test_dec_v13 :
    (after (exec .dec (withIntervals (List.replicate 8 20 ++ [21, 20, 15, 5, 20, 20])))).readReg .status = 0x406#32 ∧
      (after (exec .dec (withIntervals (List.replicate 8 20 ++ [21, 20, 15, 5, 20, 20])))).fidx = 10 ∧
      (after (exec .dec (withIntervals (List.replicate 8 20 ++ [21, 20, 15, 5, 20, 20])))).base8 = 161#32 := by decide

/-! ## The locator (section 6) -/

theorem test_fnd_f1 : (after (exec .fnd loaded)).status = found.status ∧ (after (exec .fnd loaded)).offset = 0 := by decide +kernel
theorem test_fnd_f3 : (after (exec .fnd (withBits (List.replicate 7 1#1 ++ bitsOf w1)))).offset = 7 := by decide +kernel
theorem test_fnd_f9 :
    (after (exec .fnd (withBits (bitsOf (w1.set 0 0xFF))))).readReg .status = 0x606#32 ∧
      (after (exec .fnd (withBits (bitsOf (w1.set 0 0xFF))))).fidx = 199 := by decide +kernel
theorem test_ext_f11 : (after (exec .ext found)).sym = sliced.sym ∧ (after (exec .ext found)).status = sliced.status := by decide
theorem test_symw_f11 : sliced.readReg (.symw 0) = 0x030201FE#32 ∧ sliced.readReg .status = 0x062#32 := by decide
theorem test_ext_f12 : (after (exec .ext State.reset)).readReg .status = 0xA06#32 := by decide

/-! ## The validator (sections 7 and 8) -/

theorem test_chk_c6 : (after (exec .chk sliced)).record = checked.record ∧ (after (exec .chk sliced)).xsum = 0xF4#8 := by
  decide
theorem test_recw_c6 : checked.readReg (.recw 0) = 0xFCFDFE01#32 ∧ checked.readReg .status = 0x0E2#32 := by decide
theorem test_chk_c5 : (after (exec .chk State.reset)).readReg .status = 0xA06#32 := by decide
theorem test_val_w1 :
    (after (exec .val loaded)).status = checked.status ∧ (after (exec .val loaded)).record = checked.record := by decide +kernel
theorem test_val_c3 :
    (after (exec .val (withBits (bitsOf (window 3 0xF5 0x55 0xF5 0x7F))))).readReg .status = 0x966#32 ∧
      (after (exec .val (withBits (bitsOf (window 3 0xF5 0x55 0xF5 0x7F))))).xsum = 0xF4#8 := by decide +kernel
theorem test_rev8 : rev8 0x7F#8 = 0xFE#8 ∧ rev8 0x01#8 = 0x80#8 ∧ inv8 0x55#8 = 0xAA#8 := by decide

/-! ## The host port (section 9) -/

theorem test_misaligned_read : (State.reset.memRead 0x00009#20 4).status.berr = true := by decide
theorem test_halfword_write : ({ State.reset with ie := true }.memWrite 0x0000C#20 2 0#32).ie = true := by decide
theorem test_bwin_edge :
    supported State.reset.params 0x11FFC#20 4 = some (.bwin 2047) ∧ supported small.params 0x1001C#20 4 = none := by decide
theorem test_overrun : ((pending 0x20000014#32 State.reset).memWrite 0x00004#20 4 0x20000015#32).status.ovr = true := by
  decide
theorem test_pins :
    (Pins.mk false true true 0x00004#20 0xF#4 0x10000000#32).turn = some (.host (.write 0x00004#20 4 0x10000000#32)) ∧
      (Pins.mk false true false 0x0000C#20 0x3#4 0#32).turn = some (.host (.read 0x0000C#20 2)) ∧
      (Pins.mk true false false 0#20 0#4 0#32).turn = some (.reset none) := by decide
theorem test_program_turns :
    programTurns small.params [⟨.cmd (.ldi 20), false, 1⟩] =
      some [.host (.read 0x00008#20 4), .engine, .host (.read 0x00008#20 4), .host (.write 0x00004#20 4 0x20000014#32)] := by decide
/-- P5's `RAW CMD` behind a pending LDI: in outcome A it stands before the engine's turn, in outcome B behind it. -/
theorem test_raw_both_outcomes :
    programTurns small.params [⟨.raw .cmd 0x20000015, false, 0⟩, ⟨.wait, false, 0⟩] =
        some [.host (.write 0x00004#20 4 0x20000015#32), .engine, .host (.read 0x00008#20 4)] ∧
      programTurns small.params [⟨.raw .cmd 0x20000015, true, 0⟩] = some [.engine, .host (.write 0x00004#20 4 0x20000015#32)] := by
  decide
theorem test_name_without_register :
    (Line.rd (.symw 9)).turns small.params 0 = none ∧ (Line.rd (.bwin 7)).turns small.params 0 = none ∧
      (Line.rd (.symw 6)).turns small.params 0 = some [.host (.read 0x00058#20 4)] := by decide
/-- R211: only host accesses to come, and BUSY, keep a run going. -/
theorem test_run_ended :
    ({ small with schedule := [.engine, .reset none] } : State).runEnded = true ∧
      ({ small with schedule := [.engine, .host (.read 0x00008#20 4)] } : State).runEnded = false ∧
      (small.accept 0#32).runEnded = false := by decide

/-! ## Witnesses: for every statement with hypotheses, a state and operands that meet them all

A name ends in the statement's name and, where the statement has several clauses, in the clause. -/

/-- A NOP is pending, with the turns to come. -/
def turns (w : Word) (ts : List Turn) : State := { State.reset.accept w with schedule := ts }

/-- Idle, with the turns to come. -/
def idle (ts : List Turn) : State := { State.reset with schedule := ts }

/-- Reset satisfies the invariant of a run. -/
theorem reset_consistent : Consistent State.reset where
  legal := rfl
  ibufWf := rfl
  icntFits := by decide
  bbufWf := rfl
  bcntFits := by decide
  offsetFits := by decide
  fidxFits := by decide
  busyNotDone := nofun
  faultMeansErr := nofun
  located := nofun
  sliced := nofun
  validated := nofun

theorem w1_first : FirstSentinelAt loaded.bbuf loaded.bcnt 0 := firstSentinel_eq_some.1 (by decide +kernel)

theorem w1_passes : ChecksPass (symbolsOf w1) where
  reversal := by decide
  mirror i h1 h2 := (firstMirrorFault_eq_none _).1 (by decide) i h1 h2
  sum := by decide

theorem w1_sliced : sliceWindow loaded.bbuf 0 = symbolsOf w1 := by decide

theorem w1_window_passes : WindowPasses loaded.bbuf 0 := by unfold WindowPasses; rw [w1_sliced]; exact w1_passes

/-- The state after W1 is validated satisfies the invariant, with LOC, SYMV and RVALID all 1. -/
theorem checked_consistent : Consistent checked where
  legal := rfl
  ibufWf := rfl
  icntFits := by decide
  bbufWf := by decide
  bcntFits := by decide +kernel
  offsetFits := by decide
  fidxFits := by decide
  busyNotDone := nofun
  faultMeansErr := nofun
  located _ := ⟨w1_first, by decide +kernel⟩
  sliced _ := ⟨rfl, by decide⟩
  validated _ := ⟨rfl, w1_passes, by decide, by decide⟩

theorem witness_DecodeOfEncode : (Instr.ldb 1#5 1#16).WellFormed ∧ (Instr.ldb 16#5 0xFFFF#16).WellFormed := by decide
theorem witness_EncodeOfDecode : decode 0x3010FFFF#32 = .instr (.ldb 16#5 0xFFFF#16) := by decide
theorem witness_IllegalWords :
    (turns 0x90000000#32 []).status.busy = true ∧ decode (turns 0x90000000#32 []).pend = .illegal .reservedOpcode ∧
      decode 0x00000000#32 = .instr .nop := by decide
theorem witness_StepRunsDecodedCommand :
    (turns 0x70000000#32 []).status.busy = true ∧ decode (turns 0x70000000#32 []).pend = .instr .chk ∧
      (turns 0x70000000#32 []).schedule = [] ∧ (turns 0x70000000#32 [.engine]).schedule = .engine :: [] ∧
      decodeTableWord 32 0x80000000 = some .val := by decide
theorem witness_StepRunsDecodedCommand_illegal :
    (turns 0x90000000#32 [.engine]).status.busy = true ∧ decode (turns 0x90000000#32 []).pend = .illegal .reservedOpcode ∧
      (turns 0x90000000#32 []).schedule = [] ∧ (turns 0x90000000#32 [.engine]).schedule = .engine :: [] := by decide
theorem witness_StepRunsDecodedCommand_idle :
    (idle []).status.busy = false ∧ (idle []).schedule = [] ∧ (idle [.engine]).status.busy = false ∧
      (idle [.engine]).schedule = .engine :: [] := by decide
theorem witness_StepRunsDecodedCommand_turns :
    (turns 0x70000000#32 [.host (.read 0x00008#20 4)]).schedule = .host (.read 0x00008#20 4) :: [] ∧
      (idle [.host (.write 0x0000C#20 4 1#32)]).schedule = .host (.write 0x0000C#20 4 1#32) :: [] ∧
      (turns 0x70000000#32 [.reset none]).schedule = .reset none :: [] := ⟨rfl, rfl, rfl⟩
theorem witness_ResetValues : small = State.resetOf { nInt := 10, nBit := 200 } := rfl
theorem witness_ResetFromAnyState :
    (turns 0#32 [.reset (some (.read 0x00014#20 4))]).schedule = .reset (some (.read 0x00014#20 4)) :: [] := rfl
theorem witness_ConsistentAtReset :
    ({ nInt := 10, nBit := 200 } : Config.Params).legal = true ∧ ({ nInt := 65536, nBit := 65536 } : Config.Params).legal = true := by
  decide
theorem witness_StepKeepsConsistent : ∃ t, Consistent checked ∧ step checked = .next t := ⟨_, checked_consistent, rfl⟩
theorem witness_NoPartialRecordVisible : Consistent checked ∧ checked.readReg (.recw 6) ≠ 0#32 :=
  ⟨checked_consistent, by decide⟩
theorem witness_WhoChangesTheStatusBits_err :
    ∃ t, step (turns 0x60000000#32 []) = .next t ∧ State.reset.status.err = false ∧ t.status.err = true ∧ t.status.done = true :=
  ⟨_, rfl, rfl, rfl, rfl⟩
theorem witness_WhoChangesTheStatusBits_ovr :
    ∃ t, step (turns 0#32 [.host (.write 0x00004#20 4 0#32)]) = .next t ∧ t.status.ovr = true := ⟨_, rfl, rfl⟩
theorem witness_WhoChangesTheStatusBits_berr :
    ∃ t, step (idle [.host (.read 0x00030#20 4)]) = .next t ∧ t.status.berr = true := ⟨_, rfl, rfl⟩
theorem witness_WhoChangesTheStatusBits_busy :
    ∃ t, step (idle [.host (.write 0x00004#20 4 0#32)]) = .next t ∧ t.status.busy = true := ⟨_, rfl, rfl⟩
theorem witness_WhoChangesTheStatusBits_cleared :
    ∃ s t, s.status.err = true ∧ step s = .next t ∧ t.status.err = false :=
  ⟨{ turns 0x10000000#32 [] with status := { Status.reset with busy := true, err := true } }, _, rfl, rfl, rfl⟩
theorem witness_WhoChangesTheStatusBits_busy_cleared :
    ∃ t, (turns 0#32 []).status.busy = true ∧ step (turns 0#32 []) = .next t ∧ t.status.busy = false ∧ t.status.done = true :=
  ⟨_, rfl, rfl, rfl, rfl⟩
theorem witness_WhoChangesTheStatusBits_done_cleared :
    ∃ (s t u : State), s.status.done = true ∧ step { s with schedule := [.host (.write 0x00008#20 4 2#32)] } = .next t ∧
      t.status.done = false ∧ step { s with schedule := [.host (.write 0x00004#20 4 0#32)] } = .next u ∧ u.status.done = false :=
  ⟨found, _, _, rfl, rfl, rfl, rfl, rfl⟩

theorem witness_CommandAcceptance :
    (idle [.host (.write 0x00004#20 4 0x90000000#32)]).schedule = .host (.write 0x00004#20 4 0x90000000#32) :: [] ∧
      (idle [.host (.write 0x00004#20 4 0x90000000#32)]).status.busy = false ∧
      decode 0x90000000#32 = .illegal .reservedOpcode := ⟨rfl, rfl, by decide⟩
theorem witness_CommandOverrun :
    (turns 0#32 [.host (.write 0x00004#20 4 0x10000000#32)]).schedule = .host (.write 0x00004#20 4 0x10000000#32) :: [] ∧
      (turns 0#32 [.host (.write 0x00004#20 4 0x10000000#32)]).status.busy = true := ⟨rfl, rfl⟩
theorem witness_RacingWriteHasBothOutcomes : (turns 0x20000014#32 []).status.busy = true := rfl
theorem witness_UnsupportedAccess_size : small.params.legal = true ∧ (2 : Nat) ≠ 4 := by decide
theorem witness_UnsupportedAccess_misaligned : small.params.legal = true ∧ (0x00005#20 : Addr).toNat % 4 ≠ 0 := by decide
theorem witness_UnsupportedAccess_unmapped :
    small.params.legal = true ∧ ∀ r : Reg, r.mapped small.params = true → r.addr ≠ (0x1001C#20 : Addr).toNat := by
  refine ⟨by decide, fun r h => ?_⟩
  have hn : small.params.nInt = 10 := rfl
  have hb : small.params.nBit = 200 := rfl
  cases r <;> simp [Reg.mapped, Reg.addr, bwinWords, packedWords, hn, hb] at h ⊢ <;> omega
theorem witness_RegisterMap :
    small.params.legal = true ∧ (Reg.recw 6).mapped small.params = true ∧ (Reg.bwin 6).mapped small.params = true ∧
      (Reg.iwin 9).mapped small.params = true ∧ supported small.params 0x10018#20 4 = some (.bwin 6) ∧
      6 < 7 ∧ 6 < (small.params.nBit + 31) / 32 ∧ 9 < small.params.nInt := by decide
theorem witness_SupportedReadReturnsRegister :
    State.reset.params.legal = true ∧ (Reg.iwin 65535).mapped State.reset.params = true ∧
      (idle [.host (.read (BitVec.ofNat 20 (Reg.iwin 65535).addr) 4)]).status.busy = false ∧
      (idle [.host (.read (BitVec.ofNat 20 (Reg.iwin 65535).addr) 4)]).schedule =
        .host (.read (BitVec.ofNat 20 (Reg.iwin 65535).addr) 4) :: [] := by decide
theorem witness_SupportedReadReturnsRegister_elements : Consistent checked := checked_consistent
theorem witness_ReadsHaveNoSideEffects : supported small.params 0x0002C#20 4 ≠ none := by decide
theorem witness_ReadsWhileBusy_idle :
    Consistent State.reset ∧ (Reg.symw 6).mapped State.reset.params = true ∧ State.reset.status.busy = false :=
  ⟨reset_consistent, rfl, rfl⟩
theorem pending_consistent : Consistent (turns 0x40000000#32 []) where
  legal := rfl
  ibufWf := rfl
  icntFits := by decide
  bbufWf := rfl
  bcntFits := by decide
  offsetFits := by decide
  fidxFits := by decide
  busyNotDone := fun _ => rfl
  faultMeansErr := nofun
  located := nofun
  sliced := nofun
  validated := nofun
theorem witness_ReadsWhileBusy_busy :
    Consistent (turns 0x40000000#32 []) ∧ (turns 0x40000000#32 []).status.busy = true ∧
      (Reg.ctrl).mapped State.reset.params = true ∧ Reg.ctrl ∈ [Reg.id, .nint, .nbit, .ctrl] ∧
      (Reg.status).mapped State.reset.params = true ∧ (Reg.bwin 2047).mapped State.reset.params = true ∧
      Reg.bwin 2047 ∉ [Reg.id, .cmd, .nint, .nbit, .ctrl, .status] :=
  ⟨pending_consistent, rfl, rfl, by decide, rfl, by decide, by decide⟩
theorem witness_StatusRegister :
    State.reset.status.busy = false ∧ (0x2#32 : Word).getLsbD 1 = true ∧ (0xFFFFFFFD#32 : Word).getLsbD 1 = false := by decide
theorem witness_ReadOnlyWritesIgnored :
    small.params.legal = true ∧ (Reg.iwin 9).mapped small.params = true ∧ Reg.iwin 9 ∉ [Reg.cmd, .status, .ctrl] := by decide
theorem witness_BwinShowsTheBitstream :
    small.params.legal = true ∧ small.status.busy = false ∧ 6 < (small.params.nBit + 31) / 32 ∧ 31 < 32 := by decide
theorem witness_IwinShowsTheIntervals : small.params.legal = true ∧ small.status.busy = false ∧ 9 < small.params.nInt := by decide
theorem witness_SymbolWindows :
    checked.params.legal = true ∧ checked.status.busy = false ∧ 6 < 7 ∧ 3 < 4 ∧ checked.status.rvalid = true := by decide
theorem witness_InterruptLevel :
    ∃ t, (turns 0#32 []).status.busy = true ∧ (turns 0#32 []).engineTurn = .next t ∧ (0x2#32 : Word).getLsbD 1 = true ∧
      State.reset.status.busy = false := ⟨_, rfl, rfl, by decide, rfl⟩

theorem witness_EveryCommandCompletes : Instr.clr = .clr ∧ Instr.chk ≠ .clr := by decide
theorem witness_WhatNoCommandChanges :
    ∃ t, exec .ext found = .next t ∧ (∀ v, Instr.ext ≠ .ldi v) ∧ Instr.ext ≠ .dec ∧ (∀ nb d, Instr.ext ≠ .ldb nb d) ∧
      Instr.ext ≠ .clr := ⟨_, rfl, nofun, nofun, nofun, nofun⟩
theorem witness_EngineIgnoresHostReads : ∃ t, (turns 0x10000000#32 []).engineTurn = .next t := ⟨_, rfl⟩
theorem witness_WaitEnds : (turns 0x10000000#32 (waitTurns 2 ++ [.engine])).schedule = waitTurns 2 ++ [.engine] := rfl
theorem witness_ClrComparedWithReset : ∃ t, exec .clr checked = .next t := ⟨_, rfl⟩
theorem witness_LdiAppends : ({ small with icnt := 9 } : State).icnt ≠ small.params.nInt := by decide
theorem witness_LdbAppends :
    (Instr.ldb 8#5 0xFE#16).WellFormed ∧ ({ small with bcnt := 192 } : State).bcnt + (8#5 : BitVec 5).toNat ≤ small.params.nBit := by
  decide
theorem witness_LoadsOverflow :
    ({ small with icnt := 10 } : State).icnt = small.params.nInt ∧ (Instr.ldb 9#5 0#16).WellFormed ∧
      ({ small with bcnt := 192 } : State).bcnt + (9#5 : BitVec 5).toNat > small.params.nBit := by decide
theorem witness_LoadedSymbolReadsBack :
    ∃ (s t u : State) (j : Nat), s.bcnt + 8 ≤ s.params.nBit ∧ exec (.ldb 8#5 ((0x7F#8 : Symbol).setWidth 16)) s = .next t ∧
      u.bbuf = t.bbuf ∧ u.status.loc = true ∧ j < 25 ∧ u.offset + 8 * j = s.bcnt :=
  ⟨{ found with bcnt := 192 }, _,
    { after (exec (.ldb 8#5 ((0x7F#8 : Symbol).setWidth 16)) { found with bcnt := 192 }) with
      status := { Status.reset with loc := true } }, 24, by decide, rfl, rfl, rfl, by decide, by decide⟩
theorem witness_AssemblerLoadsTheBits :
    ([1#1, 0#1] : List Bit) ≠ [] ∧ ({ small with bcnt := 198 } : State).bcnt + ([1#1, 0#1] : List Bit).length ≤ small.params.nBit := by
  decide

/-- Vector V4: W ++ [10, 10, 99]. -/
def v4 : State := withIntervals (warm ++ [10, 10, 99])

/-- Vector V8: W ++ [26, 20, 20]. -/
def v8 : State := withIntervals (warm ++ [26, 20, 20])

theorem witness_DecShortInput : (withIntervals (List.replicate 9 20)).icnt < 10 := by decide
theorem witness_DecDecodes_v4 : 10 ≤ v4.icnt ∧ Demodulates v4.interval v4.icnt 10 (seedOf v4.interval) [1#1] 160 :=
  ⟨by decide, .one _ _ _ _ (by decide) ⟨by decide, by decide⟩ (.stop _ _ (by decide))⟩
theorem witness_DecDecodes_smallest :
    10 ≤ (withIntervals warm).icnt ∧
      Demodulates (withIntervals warm).interval (withIntervals warm).icnt 10 (seedOf (withIntervals warm).interval) [] 160 :=
  ⟨by decide, .stop _ _ (by decide)⟩
theorem witness_DecFaults : 10 ≤ v8.icnt ∧ FailsAt v8.interval v8.icnt 10 (seedOf v8.interval) 10 160 :=
  ⟨by decide, .here _ _ (by decide) (fun h => absurd h.short (by decide)) (fun h => absurd h.high (by decide))⟩
theorem witness_DecOutputLength :
    10 ≤ v4.icnt ∧ (after (exec .dec v4)).status.fcode = .ok ∧ v4.params.legal = true ∧ v4.icnt ≤ v4.params.nInt ∧
      10 ≤ (withIntervals (warm ++ [20, 20])).icnt ∧ (withIntervals (warm ++ [20, 20])).icnt ≤ 12 := by decide
theorem witness_DecIgnoresEdgeIntervals :
    ∃ t, 10 ≤ v4.icnt ∧
      (∀ k, k < v4.icnt → k ≠ 0 → k ≠ 9 → k ≠ v4.icnt - 1 →
        Buffer.read (((v4.ibuf.write 0 999#28).write 9 0#28).write 12 1#28) k = v4.ibuf.read k) ∧
      exec .dec v4 = .next t := ⟨_, by decide, by decide, rfl⟩
theorem witness_DecIsDeterminedByItsIntervals :
    ∃ t t' u, ({ v8 with ie := true } : State).icnt = v8.icnt ∧
      (∀ k, k < v8.icnt → ({ v8 with ie := true } : State).ibuf.read k = v8.ibuf.read k) ∧
      exec .dec v8 = .next t ∧ exec .dec { v8 with ie := true } = .next t' ∧ exec .dec t = .next u ∧ t.status.fcode ≠ .ok :=
  ⟨_, _, _, rfl, fun _ _ => rfl, rfl, rfl, rfl, by decide⟩
theorem witness_BandEdges :
    32 * 15 = 3 * 160 ∧ 32 * 25 = 5 * 160 ∧ 5 * 161 < 32 * 26 ∧ 32 * 10 < 3 * 160 ∧ 32 * 5 = 160 := by decide
theorem witness_DecIsIndependentOfTheUnit :
    ∃ t t', 0 < 3 ∧ (withIntervals ((warm ++ [10, 10, 99]).map (3 * ·))).icnt = v4.icnt ∧
      (∀ k, k < v4.icnt → (withIntervals ((warm ++ [10, 10, 99]).map (3 * ·))).interval k = 3 * v4.interval k) ∧
      exec .dec v4 = .next t ∧ exec .dec (withIntervals ((warm ++ [10, 10, 99]).map (3 * ·))) = .next t' :=
  ⟨_, _, by decide, by decide, by decide, rfl, rfl⟩
theorem witness_DecDecodesBiphaseCells :
    0 < 10 ∧ ([7, 9] : List Nat).length = 2 ∧
      (withIntervals (List.replicate 10 20 ++ cellsOf 10 [1#1, 0#1] ++ [7, 9])).icnt = 10 + (cellsOf 10 [1#1, 0#1]).length + 2 ∧
      ∀ k, k < 15 → some ((withIntervals (List.replicate 10 20 ++ cellsOf 10 [1#1, 0#1] ++ [7, 9])).interval k) =
        (List.replicate 10 (2 * 10) ++ cellsOf 10 [1#1, 0#1] ++ [7, 9])[k]? := by decide

theorem witness_FndOutcomes_none : NoSentinel (withBits (List.replicate 7 1#1)).bbuf (withBits (List.replicate 7 1#1)).bcnt :=
  firstSentinel_eq_none.1 (by decide)
theorem witness_FndOutcomes_short :
    FirstSentinelAt loaded.bbuf 199 0 ∧ 199 - 0 < 200 := ⟨firstSentinel_eq_some.1 (by decide), by decide⟩
theorem witness_FndOutcomes_found : FirstSentinelAt loaded.bbuf loaded.bcnt 0 ∧ 200 ≤ loaded.bcnt - 0 :=
  ⟨w1_first, by decide +kernel⟩
theorem witness_SentinelInARunOfOnes :
    ∃ b : Buffer 1, 7 ≤ 9 ∧ (∀ j, j < 9 → b.read (2 + j) = 1#1) ∧ b.read (2 + 9) = 0#1 ∧ 2 ≤ 4 ∧ 4 + 7 ≤ 2 + 9 :=
  ⟨bufferOf (List.replicate 11 1#1), by decide, by decide, by decide, by decide, by decide⟩
theorem witness_ExtSlicesTheWindow : found.status.loc = true ∧ State.reset.status.loc = false ∧ 24 < 25 ∧ 7 < 8 := by decide
theorem witness_ExtReadsInRange : Consistent checked ∧ checked.status.loc = true := ⟨checked_consistent, rfl⟩
theorem witness_ExtIsRepeatable : ∃ t, checked.status.loc = true ∧ exec .ext checked = .next t := ⟨_, rfl, rfl⟩

/-- Symbols sliced: a window in SYM with SYMV = 1. -/
def withSymbols (symbols : List Nat) : State := { State.reset with sym := symbolsOf symbols, status := { Status.reset with symv := true } }

theorem witness_ChkOutcomes_sequence : State.reset.status.symv = false := rfl
theorem witness_ChkOutcomes_mirror0 :
    (withSymbols (window 3 0xF4 0x55 0xF4 0xFF)).sym.at 0 ≠ rev8 ((withSymbols (window 3 0xF4 0x55 0xF4 0xFF)).sym.at 24) := by
  decide
theorem witness_ChkOutcomes_mirror_first :
    firstMirrorFault (withSymbols (w1.set 1 0)).sym = some 1 ∧
      (withSymbols (w1.set 1 0)).sym.at 0 = rev8 ((withSymbols (w1.set 1 0)).sym.at 24) := by decide
theorem witness_ChkOutcomes_mirror_last :
    1 ≤ 11 ∧ 11 ≤ 12 ∧ (symbolsOf (w1.set 13 0)).at 11 ≠ (symbolsOf (w1.set 13 0)).at (24 - 11) ∧
      (symbolsOf (w1.set 13 0)).at 0 = rev8 ((symbolsOf (w1.set 13 0)).at 24) ∧
      ∀ k, k < 11 → 1 ≤ k → (symbolsOf (w1.set 13 0)).at k = (symbolsOf (w1.set 13 0)).at (24 - k) := by decide
theorem witness_ChkOutcomes_checksum :
    (symbolsOf (window 3 0xF5 0x55 0xF5 0x7F)).at 0 = rev8 ((symbolsOf (window 3 0xF5 0x55 0xF5 0x7F)).at 24) ∧
      (∀ k, k < 13 → 1 ≤ k →
        (symbolsOf (window 3 0xF5 0x55 0xF5 0x7F)).at k = (symbolsOf (window 3 0xF5 0x55 0xF5 0x7F)).at (24 - k)) ∧
      checksum (symbolsOf (window 3 0xF5 0x55 0xF5 0x7F)) ≠ (symbolsOf (window 3 0xF5 0x55 0xF5 0x7F)).at 13 := by decide
theorem witness_ChkOutcomes_ok : sliced.status.symv = true ∧ ChecksPass sliced.sym := ⟨rfl, w1_passes⟩
theorem witness_ChkIsRepeatable : ∃ t, sliced.status.symv = true ∧ exec .chk sliced = .next t := ⟨_, rfl, rfl⟩
theorem witness_ChecksumInAnyOrder : ([10, 9, 8, 7, 6, 5, 4, 3, 2, 1] : List Nat).Perm [1, 2, 3, 4, 5, 6, 7, 8, 9, 10] := by decide
theorem witness_ValRunsTheThreeCommands :
    ∃ t u, exec .fnd State.reset = .next t ∧ t.status.fcode ≠ .ok ∧ exec .fnd loaded = .next u ∧ u.status.fcode = .ok :=
  ⟨_, _, rfl, by decide +kernel, rfl, by decide +kernel⟩
theorem witness_ValOutcomes_none : NoSentinel State.reset.bbuf State.reset.bcnt := firstSentinel_eq_none.1 (by decide)
theorem witness_ValOutcomes_short : ∃ s : State, FirstSentinelAt s.bbuf s.bcnt 0 ∧ s.bcnt - 0 < 200 :=
  ⟨{ loaded with bcnt := 199 }, firstSentinel_eq_some.1 (by decide), by decide⟩
theorem witness_ValOutcomes_mirror0 :
    ∃ (s : State) (v : Symbols), FirstSentinelAt s.bbuf s.bcnt 0 ∧ 200 ≤ s.bcnt - 0 ∧ v = sliceWindow s.bbuf 0 ∧
      v.at 0 ≠ rev8 (v.at 24) :=
  ⟨withBits (bitsOf (window 3 0xF4 0x55 0xF4 0xFF)), _, firstSentinel_eq_some.1 (by decide +kernel), by decide +kernel, rfl,
    by decide⟩
theorem witness_ValOutcomes_mirror :
    ∃ (s : State) (v : Symbols), FirstSentinelAt s.bbuf s.bcnt 0 ∧ 200 ≤ s.bcnt - 0 ∧ v = sliceWindow s.bbuf 0 ∧
      v.at 0 = rev8 (v.at 24) ∧ 1 ≤ 3 ∧ 3 ≤ 12 ∧ v.at 3 ≠ v.at (24 - 3) ∧ ∀ k, k < 3 → 1 ≤ k → v.at k = v.at (24 - k) :=
  ⟨withBits (bitsOf (window 0 0xF4 0x55 0xF4 0x7F)), _, firstSentinel_eq_some.1 (by decide +kernel), by decide +kernel, rfl,
    by decide⟩
theorem witness_ValOutcomes_checksum :
    ∃ (s : State) (v : Symbols), FirstSentinelAt s.bbuf s.bcnt 0 ∧ 200 ≤ s.bcnt - 0 ∧ v = sliceWindow s.bbuf 0 ∧
      v.at 0 = rev8 (v.at 24) ∧ (∀ k, k < 13 → 1 ≤ k → v.at k = v.at (24 - k)) ∧ checksum v ≠ v.at 13 :=
  ⟨withBits (bitsOf (window 3 0xF5 0x55 0xF5 0x7F)), _, firstSentinel_eq_some.1 (by decide +kernel), by decide +kernel, rfl,
    by decide⟩
theorem witness_ValOutcomes_ok :
    FirstSentinelAt loaded.bbuf loaded.bcnt 0 ∧ 200 ≤ loaded.bcnt - 0 ∧ symbolsOf w1 = sliceWindow loaded.bbuf 0 ∧
      ChecksPass (symbolsOf w1) := ⟨w1_first, by decide +kernel, w1_sliced.symm, w1_passes⟩
theorem witness_ValFrame :
    ∃ t, exec .val State.reset = .next t ∧ t.status.rvalid = false ∧ t.status.fcode ∈ [.noSentinel, .shortWindow] :=
  ⟨_, rfl, by decide, by decide⟩
theorem witness_SingleBitFlips :
    FirstSentinelAt loaded.bbuf loaded.bcnt 0 ∧ 200 ≤ loaded.bcnt - 0 ∧ WindowPasses loaded.bbuf 0 ∧
      8 / 8 = 1 ∧ 95 / 8 = 11 ∧ 96 / 8 = 12 ∧ 104 / 8 = 13 ∧ 112 / 8 = 14 ∧ 191 / 8 = 23 ∧ 199 / 8 = 24 :=
  ⟨w1_first, by decide +kernel, w1_window_passes, by decide, by decide, by decide, by decide, by decide, by decide, by decide⟩

end Sys2Proof.Tests
end

/-! PROOFS. Whose turn a step is, and what one turn changes (spec/20_memory.md R71, spec/60_exceptions.md R181, R187). -/

namespace Sys2Proof.Machine

/-! ## What an update leaves unchanged -/

theorem Field.Same.trans {f : Field} {s t u : State} (h₁ : f.Same s t) (h₂ : f.Same t u) : f.Same s u := by
  cases f with
  | ibuf | bbuf => exact fun k => (h₂ k).trans (h₁ k)
  | _ => exact Eq.trans h₂ h₁

theorem OnlyChanges.trans {fs : List Field} {s t u : State} (h₁ : OnlyChanges fs s t) (h₂ : OnlyChanges fs t u) :
    OnlyChanges fs s u := fun f hf => (h₁ f hf).trans (h₂ f hf)

theorem OnlyChanges.mono {fs gs : List Field} {s t : State} (h : OnlyChanges fs s t) (hsub : fs ⊆ gs) :
    OnlyChanges gs s t := fun f hf => h f fun hm => hf (hsub hm)

/-- A fault's completion writes FIDX and the completion fields of STATUS (R183). -/
theorem onlyChanges_raise (s : State) (c : FCode) (n : Nat) :
    OnlyChanges [.fidx, .fcode, .err, .busy, .done] s (s.raise c n) := by
  intro f hf
  cases f with
  | fidx | fcode | err | busy | done => simp at hf
  | ibuf | bbuf => exact fun _ => rfl
  | _ => rfl

theorem onlyChanges_schedule (s : State) (ts : List Turn) : OnlyChanges [.schedule] s { s with schedule := ts } := by
  intro f hf
  cases f with
  | schedule => simp at hf
  | ibuf | bbuf => exact fun _ => rfl
  | _ => rfl

/-- Taking a turn off the schedule and then raising a fault. -/
theorem onlyChanges_schedule_raise (s : State) (ts : List Turn) (c : FCode) (n : Nat) :
    OnlyChanges [.fidx, .fcode, .err, .busy, .done, .schedule] s (State.raise { s with schedule := ts } c n) :=
  ((onlyChanges_schedule s ts).mono (by simp)).trans ((onlyChanges_raise _ c n).mono (by simp))

/-! ## Whose turn a step is -/

/-- A step takes the first turn, from the state with the rest of the schedule. -/
theorem step_takeTurn {s : State} {t : Turn} {rest : List Turn} (h : s.schedule = t :: rest) :
    step s = State.takeTurn { s with schedule := rest } t := by
  rw [step_cons h, State.dropTurn, h]; rfl

/-- Where the next turn is made the engine's, a step is the engine's turn, whatever was scheduled. -/
theorem step_engineNext (s : State) : step s.engineNext = s.engineTurn := by
  cases h : s.schedule with
  | nil => rw [State.engineNext, h]; exact step_nil h
  | cons t rest =>
    have hnext : s.engineNext = { s with schedule := .engine :: t :: rest } := by rw [State.engineNext, h]
    rw [hnext, step_takeTurn rfl, ← h]; rfl

theorem engineTurn_instr {s : State} {i : Instr} (hb : s.status.busy = true) (hd : decode s.pend = .instr i) :
    s.engineTurn = exec i s := by
  simp only [State.engineTurn, hb, State.executePending, hd, ite_true]

theorem engineTurn_illegal {s : State} {why : Illegal} (hb : s.status.busy = true)
    (hd : decode s.pend = .illegal why) : s.engineTurn = .next (s.raise .illegal 0) := by
  simp only [State.engineTurn, hb, State.executePending, hd, ite_true]

theorem decode_of_decodeTableWord {n w : Nat} {i : Instr} (h : decodeTableWord n w = some i) :
    decode (tableWord n w) = .instr i := by
  unfold decodeTableWord at h
  split at h
  · next hd => rw [hd, Option.some.inj h]
  · cases h

/-- Settles O5: the schedule's first turn decides the step, and the engine's turn decodes PEND. -/
theorem stepRunsDecodedCommand : Obligations.StepRunsDecodedCommand := by
  unfold Obligations.StepRunsDecodedCommand
  refine ⟨fun s i hb hd => ⟨fun h => ?_, fun rest h => ?_⟩, fun s why hb hd => ⟨fun h => ?_, fun rest h => ?_⟩,
    fun s hb => ⟨fun h => ?_, fun rest h => ?_⟩, fun _ _ _ _ h => step_takeTurn h, fun _ _ _ _ _ h => step_takeTurn h,
    fun _ _ _ h => step_takeTurn h, fun s n w i h => ?_⟩
  · rw [step_nil h, engineTurn_instr hb hd]
  · exact (step_takeTurn h).trans (engineTurn_instr hb hd)
  · exact ⟨s.raise .illegal 0, (step_nil h).trans (engineTurn_illegal hb hd), completedFault_raise ..,
      onlyChanges_raise s _ _⟩
  · exact ⟨State.raise { s with schedule := rest } .illegal 0, (step_takeTurn h).trans (engineTurn_illegal hb hd), rfl,
      completedFault_raise .., onlyChanges_schedule_raise s rest _ _⟩
  · rw [step_nil h, engineTurn_idle hb]
  · exact (step_takeTurn h).trans (engineTurn_idle hb)
  · rw [State.withFetchWord, step_engineNext]
    exact engineTurn_instr rfl (decode_of_decodeTableWord h)

end Sys2Proof.Machine

/-! PROOFS. The invariant of a run: it holds at reset, and every turn of every agent keeps it (spec/10_state.md R22 to R39).
Each update that a rule makes is shown to keep it once; the commands' pseudocode is then followed case by case. -/

namespace Sys2Proof.Machine

/-! ## At reset -/

theorem consistent_resetOf {p : Config.Params} (h : p.legal = true) : Consistent (State.resetOf p) where
  legal := h
  ibufWf := rfl
  icntFits := Nat.zero_le _
  bbufWf := rfl
  bcntFits := Nat.zero_le _
  offsetFits := Nat.zero_le _
  fidxFits := Nat.zero_le _
  busyNotDone := nofun
  faultMeansErr := fun hne => absurd rfl hne
  located := nofun
  sliced := nofun
  validated := nofun

/-- Settles O8: every count is 0, both arrays are empty and every flag is clear. -/
theorem consistentAtReset : Obligations.ConsistentAtReset := by
  unfold Obligations.ConsistentAtReset
  exact ⟨fun _ h => consistent_resetOf h, consistent_resetOf rfl⟩

namespace Consistent

variable {s : State}

theorem nBit_ge (h : Consistent s) : 200 ≤ s.params.nBit := ((legal_iff _).1 h.legal).2.2.2.2

theorem nInt_le_nBit (h : Consistent s) : s.params.nInt ≤ s.params.nBit := ((legal_iff _).1 h.legal).2.2.1

/-! ## The updates of the host and of reset -/

theorem dropTurn (h : Consistent s) : Consistent s.dropTurn := { h with }

theorem accept (h : Consistent s) (w : Word) : Consistent (s.accept w) := { h with busyNotDone := fun _ => rfl }

theorem clearDone (h : Consistent s) : Consistent s.clearDone := { h with busyNotDone := fun _ => rfl }

theorem setOvr (h : Consistent s) : Consistent s.setOvr := { h with }

theorem setBerr (h : Consistent s) : Consistent s.setBerr := { h with }

theorem writeCtrl (h : Consistent s) (w : Word) : Consistent (s.writeCtrl w) := { h with }

theorem memRead (h : Consistent s) (a : Addr) (n : Nat) : Consistent (s.memRead a n) := by
  obtain ⟨w, d, e | e⟩ := memRead_changes s a n <;> rw [e] <;> exact { h with }

theorem memWrite (h : Consistent s) (a : Addr) (n : Nat) (v : Word) : Consistent (s.memWrite a n v) := by
  rcases memWrite_cases s a n v with ⟨-, e⟩ | ⟨-, -, e⟩ | ⟨-, -, e⟩ | ⟨-, -, e⟩ | ⟨-, -, e⟩ | ⟨-, e⟩ | ⟨_, -, -, -, -, e⟩ <;>
    rw [e]
  · exact h.setBerr
  · exact h.setOvr
  · exact h.accept v
  · exact h.clearDone
  · exact h
  · exact h.writeCtrl v
  · exact h

theorem access (h : Consistent s) : ∀ a, Consistent (s.access a)
  | .read a n => h.memRead a n
  | .write a n v => h.memWrite a n v

theorem resetStep (h : Consistent s) : Consistent s.resetStep := { consistent_resetOf h.legal with }

theorem resetWith (h : Consistent s) (a : Option Access) : Consistent (s.resetWith a) := by
  rcases resetWith_cases s a with e | ⟨-, e⟩ <;> rw [e]
  · exact h.resetStep
  · exact { h.resetStep with }

/-! ## Completion -/

theorem complete (h : Consistent s) : Consistent s.complete :=
  { h with busyNotDone := nofun, faultMeansErr := fun hne => absurd rfl hne }

theorem raise (h : Consistent s) (c : FCode) {n : Nat} (hn : n ≤ s.params.nBit) : Consistent (s.raise c n) :=
  { h with fidxFits := hn, busyNotDone := nofun, faultMeansErr := fun _ => rfl }

/-! ## The updates of the commands -/

theorem clearLocated (h : Consistent s) : Consistent s.clearLocated :=
  { h with located := nofun, sliced := nofun, validated := nofun }

/-- CLR clears ERR before its completion clears FCODE, so the two are one step here (R102). -/
theorem clearData_complete (h : Consistent s) : Consistent s.clearData.complete :=
  { h with
    icntFits := Nat.zero_le _
    bcntFits := Nat.zero_le _
    offsetFits := Nat.zero_le _
    fidxFits := Nat.zero_le _
    busyNotDone := nofun
    faultMeansErr := fun hne => absurd rfl hne
    located := nofun
    sliced := nofun
    validated := nofun }

theorem appendInterval (h : Consistent s) (v : Interval) (hn : s.icnt ≠ s.params.nInt) : Consistent (s.appendInterval v) :=
  have hlt : s.icnt < s.params.nInt := Nat.lt_of_le_of_ne h.icntFits hn
  { h with ibufWf := Buffer.wf_write h.ibufWf hlt v, icntFits := hlt }

theorem appendBits_clearLocated (h : Consistent s) {bits : List Bit} (hn : s.bcnt + bits.length ≤ s.params.nBit) :
    Consistent (s.appendBits bits).clearLocated :=
  { h.clearLocated with
    bbufWf := Buffer.wf_writeList bits h.bbufWf hn
    bcntFits := hn
    located := nofun
    sliced := nofun }

theorem dropBits (h : Consistent s) (b8 : Nat) : Consistent (s.clearLocated.dropBits.setBase8 b8) :=
  { h.clearLocated with bcntFits := Nat.zero_le _, located := nofun }

theorem replaceBits (h : Consistent s) {out : List Bit} (hn : out.length ≤ s.params.nBit) (b8 : Nat) :
    Consistent ((s.clearLocated.replaceBits out).setBase8 b8) :=
  { h.clearLocated with
    bbufWf := Buffer.wf_writeList out h.bbufWf (by omega)
    bcntFits := hn
    located := nofun
    sliced := nofun }

theorem clearLocated_setOffset (h : Consistent s) {p : Nat} (hp : p ≤ s.params.nBit) :
    Consistent (s.clearLocated.setOffset p) :=
  { h.clearLocated with offsetFits := hp, located := nofun, sliced := nofun }

/-- LOC goes up only at the first sentinel, with the whole window after it (R141). -/
theorem setLoc (h : Consistent s) (hf : FirstSentinelAt s.bbuf s.bcnt s.offset) (hw : 200 ≤ s.bcnt - s.offset)
    (hs : s.status.symv = false) : Consistent s.setLoc :=
  { h with
    located := fun _ => ⟨hf, hw⟩
    sliced := fun hv => absurd (hs.symm.trans hv) Bool.false_ne_true }

/-- SYMV goes up with the window at OFFSET in SYM, while LOC = 1 (R145). -/
theorem setSym_setSymv (h : Consistent s) (hl : s.status.loc = true) {v : Symbols}
    (hv : ∀ j, j < 25 → v.at j = sym8 s.bbuf (s.offset + 8 * j)) : Consistent (s.setSym v).setSymv :=
  { h with
    sliced := fun _ => ⟨hl, hv⟩
    validated := nofun }

theorem clearRvalid (h : Consistent s) : Consistent (s.setRvalid false) := { h with validated := nofun }

theorem clearRvalid_setXsum (h : Consistent s) (x : Symbol) : Consistent ((s.setRvalid false).setXsum x) :=
  { h.clearRvalid with validated := nofun }

/-- RVALID goes up with the inverted symbols in REC, once SYM has passed every check (R160, R164). -/
theorem setRecord_setRvalid (h : Consistent s) (hs : s.status.symv = true) (hp : ChecksPass s.sym) {x : Symbol}
    (hx : x = checksum s.sym) {v : Symbols} (hv : ∀ j, j < 25 → v.at j = inv8 (s.sym.at j)) :
    Consistent ((((s.setRvalid false).setXsum x).setRecord v).setRvalid true) :=
  { h with validated := fun _ => ⟨hs, hp, hx, hv⟩ }

end Consistent

/-! ## The commands -/

/-- What a command's pseudocode must leave for its completion to keep the invariant. -/
def Run.Keeps : Run → Prop
  | .goesOn s => Consistent s
  | .raised s _ n => Consistent s ∧ n ≤ s.params.nBit

theorem Run.Keeps.finish {r : Run} (h : r.Keeps) : Consistent r.finish := by
  cases r with
  | goesOn s => exact Consistent.complete h
  | raised s c n =>
    obtain ⟨hs, hn⟩ := h
    exact hs.raise c hn

theorem Run.Keeps.andThen {r : Run} {next : State → Run} (h : r.Keeps) (hnext : ∀ s, Consistent s → (next s).Keeps) :
    (r.andThen next).Keeps := by
  cases r with
  | goesOn s => exact hnext s h
  | raised s c n => exact h

section
variable {s : State}

theorem ldiBody_keeps (v : Interval) (h : Consistent s) : (ldiBody v s).Keeps := by
  rcases ldiBody_cases v s with ⟨-, e⟩ | ⟨hn, e⟩ <;> rw [e]
  · exact ⟨h, h.icntFits.trans h.nInt_le_nBit⟩
  · exact h.appendInterval v hn

theorem ldbBody_keeps (nb : BitVec 5) (d : BitVec 16) (h : Consistent s) : (ldbBody nb d s).Keeps := by
  rcases ldbBody_cases nb d s with ⟨-, e⟩ | ⟨hn, e⟩ <;> rw [e]
  · exact ⟨h, h.bcntFits⟩
  · exact h.appendBits_clearLocated (by rwa [length_ldbBits])

/-- The whole output of DEC fits in BBUF: it is no longer than its input (R129). -/
theorem demod_output_fits (h : Consistent s) (hn : 10 ≤ s.icnt) {bits : List Bit} {b8 : Nat}
    (hd : s.demod = .decoded bits b8) : (warmup ++ bits).length ≤ s.params.nBit := by
  have hlen : bits.length ≤ s.icnt - 2 - 10 := demodLoop_length _ _ _ hd
  have hi := h.icntFits
  have hp := h.nInt_le_nBit
  rw [List.length_append, length_warmup]
  omega

/-- The index DEC reports on a DecodeFault is one of its intervals' (R128). -/
theorem demod_failure_fits (h : Consistent s) {i b8 : Nat} (hd : s.demod = .failed i b8) : i ≤ s.params.nBit := by
  have hlt := (demodLoop_failed_lt _ _ _ hd).2
  have hi := h.icntFits
  have hp := h.nInt_le_nBit
  omega

theorem decBody_keeps (h : Consistent s) : (decBody s).Keeps := by
  rcases decBody_cases s with ⟨-, e⟩ | ⟨-, i, b8, hd, e⟩ | ⟨hn, bits, b8, hd, e⟩ <;> rw [e]
  · exact ⟨h.dropBits 0, h.icntFits.trans h.nInt_le_nBit⟩
  · exact ⟨h.dropBits b8, demod_failure_fits h hd⟩
  · exact h.replaceBits (demod_output_fits h hn hd) b8

theorem FirstSentinelAt.offset_le {b : Buffer 1} {n p : Nat} (h : FirstSentinelAt b n p) : p ≤ n := by
  have := h.inRange; omega

theorem fndBody_keeps (h : Consistent s) : (fndBody s).Keeps := by
  rcases fndBody_cases s with ⟨-, e⟩ | ⟨p, hp, -, e⟩ | ⟨p, hp, hw, e⟩ <;> rw [e]
  · exact ⟨h.clearLocated_setOffset (Nat.zero_le _), h.bcntFits⟩
  · exact ⟨h.clearLocated_setOffset (hp.offset_le.trans h.bcntFits), (Nat.sub_le _ _).trans h.bcntFits⟩
  · exact (h.clearLocated_setOffset (hp.offset_le.trans h.bcntFits)).setLoc hp hw rfl

theorem extBody_keeps (h : Consistent s) : (extBody s).Keeps := by
  rcases extBody_cases s with ⟨-, e⟩ | ⟨hl, e⟩ <;> rw [e]
  · exact ⟨h, Nat.zero_le _⟩
  · exact h.setSym_setSymv hl (at_sliceWindow s.bbuf s.offset)

theorem chkBody_keeps (h : Consistent s) : (chkBody s).Keeps := by
  have hbit := h.nBit_ge
  rcases chkBody_cases s with ⟨-, e⟩ | ⟨-, -, e⟩ | ⟨-, -, i, hm, e⟩ | ⟨-, -, -, -, e⟩ | ⟨hs, h0, hm, hx, e⟩ <;> rw [e]
  · exact ⟨h, Nat.zero_le _⟩
  · exact ⟨h.clearRvalid, Nat.zero_le _⟩
  · have hi : i ≤ 12 := ((firstMirrorFault_eq_some ..).1 hm).1.2
    exact ⟨h.clearRvalid, hi.trans (le_trans (by decide) hbit)⟩
  · exact ⟨h.clearRvalid_setXsum _, le_trans (by decide) hbit⟩
  · exact h.setRecord_setRvalid hs ⟨h0, (firstMirrorFault_eq_none _).1 hm, hx⟩ rfl (at_invertAll s.sym)

/-- VAL keeps the invariant because FND, EXT and CHK do, one after the other (R166). -/
theorem valBody_keeps (h : Consistent s) : (valBody s).Keeps :=
  ((fndBody_keeps h).andThen fun _ => extBody_keeps).andThen fun _ => chkBody_keeps

/-- Every command keeps the invariant. -/
theorem Consistent.bodyOf_finish (h : Consistent s) (i : Instr) : Consistent (bodyOf i s).finish := by
  cases i with
  | nop => exact h.complete
  | clr => exact h.clearData_complete
  | ldi v => exact (ldiBody_keeps v h).finish
  | ldb nb d => exact (ldbBody_keeps nb d h).finish
  | dec => exact (decBody_keeps h).finish
  | fnd => exact (fndBody_keeps h).finish
  | ext => exact (extBody_keeps h).finish
  | chk => exact (chkBody_keeps h).finish
  | val => exact (valBody_keeps h).finish

/-! ## The turns -/

/-- The engine's turn has a next state, and the invariant holds in it. -/
theorem Consistent.engineTurn (h : Consistent s) : ∃ t, s.engineTurn = .next t ∧ Consistent t := by
  cases hb : s.status.busy with
  | false => exact ⟨s, engineTurn_idle hb, h⟩
  | true =>
    rcases engineTurn_busy hb with ⟨i, -, e⟩ | ⟨why, -, e⟩
    · exact ⟨_, e.trans (exec_eq_body i s), h.bodyOf_finish i⟩
    · exact ⟨_, e, h.raise .illegal (Nat.zero_le _)⟩

/-- A step has a next state, and the invariant holds in it. -/
theorem Consistent.step (h : Consistent s) : ∃ t, Machine.step s = .next t ∧ Consistent t := by
  rcases step_cases s with ⟨-, e⟩ | ⟨_, -, e⟩ | ⟨a, _, -, e⟩ | ⟨a, _, -, e⟩ <;> rw [e]
  · exact h.engineTurn
  · exact h.dropTurn.engineTurn
  · exact ⟨_, rfl, h.dropTurn.access a⟩
  · exact ⟨_, rfl, h.dropTurn.resetWith a⟩

end

/-- Settles O9: every turn a step can be keeps the invariant, each command by the cases of its pseudocode. -/
theorem stepKeepsConsistent : Obligations.StepKeepsConsistent := by
  unfold Obligations.StepKeepsConsistent
  intro s t h e
  obtain ⟨u, hu, hc⟩ := h.step
  cases hu.symm.trans e
  exact hc

end Sys2Proof.Machine

/-! PROOFS. What no command changes, and how every command ends (spec/60_exceptions.md R181 to R183, R186). -/

namespace Sys2Proof.Machine

/-- What a command's pseudocode leaves alone before its completion: the port, the parameters and the schedule always, and
what only LDI, only DEC and LDB, or only CLR may write (R22, R24, R32, R33). -/
structure CommandFrame (i : Instr) (s t : State) : Prop where
  params : t.params = s.params
  ie : t.ie = s.ie
  pend : t.pend = s.pend
  rdata : t.rdata = s.rdata
  draws : t.draws = s.draws
  schedule : t.schedule = s.schedule
  ibuf : (∀ v, i ≠ .ldi v) → t.ibuf = s.ibuf
  bbuf : i ≠ .dec → (∀ nb d, i ≠ .ldb nb d) → t.bbuf = s.bbuf
  fidx : i ≠ .clr → t.fidx = s.fidx
  err : i ≠ .clr → t.status.err = s.status.err
  ovr : i ≠ .clr → t.status.ovr = s.status.ovr
  berr : i ≠ .clr → t.status.berr = s.status.berr

namespace CommandFrame

variable {i : Instr} {s t u : State}

theorem refl (i : Instr) (s : State) : CommandFrame i s s :=
  ⟨rfl, rfl, rfl, rfl, rfl, rfl, fun _ => rfl, fun _ _ => rfl, fun _ => rfl, fun _ => rfl, fun _ => rfl, fun _ => rfl⟩

theorem trans (h : CommandFrame i s t) (h' : CommandFrame i t u) : CommandFrame i s u where
  params := h'.params.trans h.params
  ie := h'.ie.trans h.ie
  pend := h'.pend.trans h.pend
  rdata := h'.rdata.trans h.rdata
  draws := h'.draws.trans h.draws
  schedule := h'.schedule.trans h.schedule
  ibuf hi := (h'.ibuf hi).trans (h.ibuf hi)
  bbuf hd hb := (h'.bbuf hd hb).trans (h.bbuf hd hb)
  fidx hi := (h'.fidx hi).trans (h.fidx hi)
  err hi := (h'.err hi).trans (h.err hi)
  ovr hi := (h'.ovr hi).trans (h.ovr hi)
  berr hi := (h'.berr hi).trans (h.berr hi)

theorem setSym (h : CommandFrame i s t) (v : Symbols) : CommandFrame i s (t.setSym v) := { h with }

theorem setSymv (h : CommandFrame i s t) : CommandFrame i s t.setSymv := { h with }

theorem setRvalid (h : CommandFrame i s t) (v : Bool) : CommandFrame i s (t.setRvalid v) := { h with }

theorem setXsum (h : CommandFrame i s t) (x : Symbol) : CommandFrame i s (t.setXsum x) := { h with }

theorem setRecord (h : CommandFrame i s t) (v : Symbols) : CommandFrame i s (t.setRecord v) := { h with }

theorem clearLocated (h : CommandFrame i s t) : CommandFrame i s t.clearLocated := { h with }

theorem setOffset (h : CommandFrame i s t) (p : Nat) : CommandFrame i s (t.setOffset p) := { h with }

theorem setLoc (h : CommandFrame i s t) : CommandFrame i s t.setLoc := { h with }

theorem dropBits (h : CommandFrame i s t) : CommandFrame i s t.dropBits := { h with }

theorem setBase8 (h : CommandFrame i s t) (b8 : Nat) : CommandFrame i s (t.setBase8 b8) := { h with }

end CommandFrame

/-- A command's pseudocode from `s` stayed within the command's frame, and if it raised, it raised a fault. -/
def Run.Within (i : Instr) (s : State) : Run → Prop
  | .goesOn t => CommandFrame i s t
  | .raised t c _ => CommandFrame i s t ∧ c ≠ .ok

theorem Run.Within.andThen {i : Instr} {s : State} {r : Run} {next : State → Run} (h : r.Within i s)
    (hnext : ∀ t, (next t).Within i t) : (r.andThen next).Within i s := by
  cases r with
  | raised t c n => exact h
  | goesOn t =>
    have ht : CommandFrame i s t := h
    have hn := hnext t
    rw [Run.andThen_goesOn]
    cases hr : next t with
    | goesOn u => rw [hr] at hn; exact ht.trans hn
    | raised u c n => rw [hr] at hn; exact hn.imp_left ht.trans

section
variable (i : Instr) (s : State)

theorem ldiBody_within (v : Interval) : (ldiBody v s).Within (.ldi v) s := by
  rcases ldiBody_cases v s with ⟨-, e⟩ | ⟨-, e⟩ <;> rw [e]
  · exact ⟨.refl _ s, nofun⟩
  · exact { CommandFrame.refl _ s with ibuf := fun hi => absurd rfl (hi v) }

theorem ldbBody_within (nb : BitVec 5) (d : BitVec 16) : (ldbBody nb d s).Within (.ldb nb d) s := by
  rcases ldbBody_cases nb d s with ⟨-, e⟩ | ⟨-, e⟩ <;> rw [e]
  · exact ⟨.refl _ s, nofun⟩
  · exact { CommandFrame.refl _ s with bbuf := fun _ hi => absurd rfl (hi nb d) }

theorem decBody_within : (decBody s).Within .dec s := by
  have h := (CommandFrame.refl .dec s).clearLocated
  rcases decBody_cases s with ⟨-, e⟩ | ⟨-, _, b8, -, e⟩ | ⟨-, _, _, -, e⟩ <;> rw [e]
  · exact ⟨h.dropBits.setBase8 0, nofun⟩
  · exact ⟨h.dropBits.setBase8 b8, nofun⟩
  · exact { h with bbuf := fun hi => absurd rfl hi }

/-! FND, EXT and CHK stay within the frame of any command, so VAL, which runs all three, stays within its own. -/

theorem fndBody_within : (fndBody s).Within i s := by
  have h := (CommandFrame.refl i s).clearLocated.setOffset
  rcases fndBody_cases s with ⟨-, e⟩ | ⟨p, -, -, e⟩ | ⟨p, -, -, e⟩ <;> rw [e]
  · exact ⟨h 0, nofun⟩
  · exact ⟨h p, nofun⟩
  · exact (h p).setLoc

theorem extBody_within : (extBody s).Within i s := by
  have h := CommandFrame.refl i s
  rcases extBody_cases s with ⟨-, e⟩ | ⟨-, e⟩ <;> rw [e]
  · exact ⟨h, nofun⟩
  · exact (h.setSym _).setSymv

theorem chkBody_within : (chkBody s).Within i s := by
  have h := (CommandFrame.refl i s).setRvalid false
  rcases chkBody_cases s with ⟨-, e⟩ | ⟨-, -, e⟩ | ⟨-, -, _, -, e⟩ | ⟨-, -, -, -, e⟩ | ⟨-, -, -, -, e⟩ <;> rw [e]
  · exact ⟨.refl i s, nofun⟩
  · exact ⟨h, nofun⟩
  · exact ⟨h, nofun⟩
  · exact ⟨h.setXsum _, nofun⟩
  · exact ((h.setXsum _).setRecord _).setRvalid true

theorem valBody_within : (valBody s).Within i s :=
  ((fndBody_within i s).andThen (extBody_within i)).andThen (chkBody_within i)

/-- CLR writes FIDX and the sticky bits, which its frame leaves open (R102). -/
theorem clearData_frame : CommandFrame .clr s s.clearData :=
  { CommandFrame.refl .clr s with
    fidx := fun hi => absurd rfl hi
    err := fun hi => absurd rfl hi
    ovr := fun hi => absurd rfl hi
    berr := fun hi => absurd rfl hi }

theorem bodyOf_within : (bodyOf i s).Within i s := by
  cases i with
  | nop => exact .refl _ s
  | clr => exact clearData_frame s
  | ldi v => exact ldiBody_within s v
  | ldb nb d => exact ldbBody_within s nb d
  | dec => exact decBody_within s
  | fnd => exact fndBody_within _ s
  | ext => exact extBody_within _ s
  | chk => exact chkBody_within _ s
  | val => exact valBody_within _ s

end

/-- A command writes within its frame, and then completes or raises a fault (R182, R183). -/
theorem exec_cases {i : Instr} {s t : State} (h : exec i s = .next t) :
    ∃ u, CommandFrame i s u ∧ (t = u.complete ∨ ∃ c n, c ≠ .ok ∧ t = u.raise c n) := by
  have hw := bodyOf_within i s
  cases (exec_eq_body i s).symm.trans h
  cases hr : bodyOf i s with
  | goesOn u => rw [hr] at hw; exact ⟨u, hw, .inl rfl⟩
  | raised u c n =>
    rw [hr] at hw
    obtain ⟨hu, hc⟩ := hw
    exact ⟨u, hu, .inr ⟨c, n, hc, rfl⟩⟩

/-- Settles O28: a command writes within its frame, and neither completion leaves it. -/
theorem whatNoCommandChanges : Obligations.WhatNoCommandChanges := by
  unfold Obligations.WhatNoCommandChanges
  intro i s t h
  obtain ⟨u, hu, rfl | ⟨c, n, -, rfl⟩⟩ := exec_cases h <;>
    exact ⟨hu.ie, hu.params, hu.pend, hu.rdata, hu.draws, hu.schedule, hu.ibuf, hu.bbuf, fun hi => ⟨hu.ovr hi, hu.berr hi⟩⟩

/-- With a command pending, the engine's turn leaves a completion and CTRL.IE as it was (R181 to R183, R187). -/
theorem engineTurn_completes {s t : State} (hb : s.status.busy = true) (h : s.engineTurn = .next t) :
    t.status.busy = false ∧ t.status.done = true ∧ t.ie = s.ie := by
  rcases engineTurn_busy hb with ⟨i, -, e⟩ | ⟨why, -, e⟩
  · obtain ⟨u, hu, rfl | ⟨c, n, -, rfl⟩⟩ := exec_cases (e.symm.trans h) <;> exact ⟨rfl, rfl, hu.ie⟩
  · cases e.symm.trans h
    exact ⟨rfl, rfl, rfl⟩

end Sys2Proof.Machine

/-! PROOFS. The reset values (R39), the host's writes to CMD, STATUS and CTRL (R37, R54, R55), and the interrupt (R34, R186). -/

namespace Sys2Proof.Machine

theorem Status.word_reset : Status.reset.word = 0#32 := by decide

theorem ctrlWord_false : ctrlWord false = 0#32 := by decide

/-- Settles O6: each value is the field of the reset state, or the register's word of it. -/
theorem resetValues : Obligations.ResetValues := by
  unfold Obligations.ResetValues
  rintro p s rfl
  exact ⟨rfl, rfl, rfl, rfl, fun j _ => ⟨Symbols.at_replicate j, Symbols.at_replicate j⟩, rfl, rfl, Status.word_reset, rfl,
    ctrlWord_false, rfl, rfl, rfl, rfl, rfl⟩

/-! ## What a host write does -/

section
variable (s : State) (w : Word)

/-- A 4-byte write to 0x00004 is a command issue (R53). -/
theorem memWrite_cmd : s.memWrite 0x00004#20 4 w = s.writeCmd w := rfl

/-- A 4-byte write to 0x00008 is a write to STATUS (R54). -/
theorem memWrite_status : s.memWrite 0x00008#20 4 w = s.writeStatus w := rfl

/-- A 4-byte write to 0x0000C is a write to CTRL (R55). -/
theorem memWrite_ctrl : s.memWrite 0x0000C#20 4 w = s.writeCtrl w := rfl

theorem writeCmd_idle (hb : s.status.busy = false) : s.writeCmd w = s.accept w := by simp [State.writeCmd, hb]

theorem writeStatus_clears (hw : w.getLsbD 1 = true) : s.writeStatus w = s.clearDone := if_pos hw

theorem writeStatus_ignores (hw : w.getLsbD 1 = false) : s.writeStatus w = s := if_neg (by rw [hw]; exact Bool.false_ne_true)

/-- Acceptance writes PEND, BUSY and DONE (R37). -/
theorem onlyChanges_accept : OnlyChanges [.pend, .busy, .done] s (s.accept w) := by
  intro f hf
  cases f with
  | pend | busy | done => simp at hf
  | ibuf | bbuf => exact fun _ => rfl
  | _ => rfl

theorem onlyChanges_clearDone : OnlyChanges [.done] s s.clearDone := by
  intro f hf
  cases f with
  | done => simp at hf
  | ibuf | bbuf => exact fun _ => rfl
  | _ => rfl

theorem OnlyChanges.refl (fs : List Field) : OnlyChanges fs s s := by
  intro f _
  cases f with
  | ibuf | bbuf => exact fun _ => rfl
  | _ => rfl

end

/-- Settles O12: the turn's write is an acceptance, after which the engine raises ILLEGAL on an illegal word. -/
theorem commandAcceptance : Obligations.CommandAcceptance := by
  unfold Obligations.CommandAcceptance
  intro s w rest h hb
  have hstep : step s = .next (State.accept { s with schedule := rest } w) :=
    (step_takeTurn h).trans (congrArg Host.Outcome.next (writeCmd_idle _ w hb))
  have honly : OnlyChanges [.pend, .busy, .done, .schedule] s (State.accept { s with schedule := rest } w) :=
    ((onlyChanges_schedule s rest).mono (by simp)).trans ((onlyChanges_accept _ w).mono (by simp))
  exact ⟨_, hstep, rfl, rfl, rfl, rfl, honly, fun _ hd => ⟨_, engineTurn_illegal rfl hd, rfl⟩⟩

/-! ## The interrupt -/

theorem irq_of_not_done {s : State} (h : s.status.done = false) : s.irq = false := by simp [State.irq, h]

theorem irq_of_done {s : State} (h : s.status.done = true) : s.irq = s.ie := by simp [State.irq, h]

/-- Settles O26: irq is DONE and IE, a completion sets DONE, and the writes and reset say what they leave of both. -/
theorem interruptLevel : Obligations.InterruptLevel := by
  unfold Obligations.InterruptLevel
  refine ⟨fun s t hb h => ?_, fun s w hw => ?_, fun s w hb => ?_, fun s a => ?_, fun s w => ⟨rfl, rfl⟩⟩
  · obtain ⟨-, hdone, hie⟩ := engineTurn_completes hb h
    exact ⟨(irq_of_done hdone).trans hie, hdone⟩
  · rw [memWrite_status, writeStatus_clears s w hw]
    exact irq_of_not_done rfl
  · rw [memWrite_cmd, writeCmd_idle s w hb]
    exact irq_of_not_done rfl
  · rcases resetWith_cases s a with e | ⟨-, e⟩ <;> rw [e] <;> rfl

/-! ## STATUS as a host reads it -/

section
variable (u : Status)

theorem Status.word_flags : u.word.getLsbD 0 = u.busy ∧ u.word.getLsbD 1 = u.done ∧ u.word.getLsbD 2 = u.err ∧
    u.word.getLsbD 3 = u.ovr ∧ u.word.getLsbD 4 = u.berr ∧ u.word.getLsbD 5 = u.loc ∧ u.word.getLsbD 6 = u.symv ∧
    u.word.getLsbD 7 = u.rvalid := by
  simp only [Status.word, BitVec.getLsbD_append, BitVec.getLsbD_ofBool]
  simp

theorem Status.word_fcode : u.word.extractLsb' 8 4 = u.fcode.code := by
  apply BitVec.eq_of_getLsbD_eq
  intro i hi
  simp only [Status.word, BitVec.getLsbD_extractLsb', BitVec.getLsbD_append, BitVec.getLsbD_ofBool]
  simp [hi]

theorem Status.word_reserved : u.word.extractLsb' 12 20 = 0#20 := by
  apply BitVec.eq_of_getLsbD_eq
  intro i hi
  simp only [Status.word, BitVec.getLsbD_extractLsb', BitVec.getLsbD_append, BitVec.getLsbD_ofBool]
  simp [hi]

end

/-- A 4-byte read of 0x00008 while BUSY = 0 returns STATUS as one word (R51, R60). -/
theorem memRead_status_idle {s : State} (hb : s.status.busy = false) : (s.memRead 0x00008#20 4).rdata = s.status.word := by
  rcases memRead_cases s 0x00008#20 4 with ⟨h, -⟩ | ⟨r, -, h, -⟩ | ⟨r, hr, -, e⟩
  · cases h
  · simp [hb] at h
  · cases hr
    rw [e]; rfl

/-- Settles O20: each field stands in its place of the word, and a write clears DONE or does nothing. -/
theorem statusRegister : Obligations.StatusRegister := by
  unfold Obligations.StatusRegister
  refine ⟨fun s hb => ⟨_, rfl, ?_⟩, fun s w => ?_, rfl, rfl, rfl, rfl, rfl, rfl, rfl, rfl, rfl, rfl, rfl⟩
  · obtain ⟨h0, h1, h2, h3, h4, h5, h6, h7⟩ := Status.word_flags s.status
    rw [memRead_status_idle hb]
    exact ⟨h0, h1, h2, h3, h4, h5, h6, h7, Status.word_fcode _, Status.word_reserved _⟩
  · rw [memWrite_status]
    cases hw : w.getLsbD 1 with
    | true =>
      rw [writeStatus_clears s w hw]
      exact ⟨_, rfl, onlyChanges_clearDone s, fun _ => ⟨rfl, irq_of_not_done rfl⟩, nofun⟩
    | false =>
      rw [writeStatus_ignores s w hw]
      exact ⟨_, rfl, .refl s _, nofun, fun _ => rfl⟩

/-! ## The record windows -/

/-- Where SYMV = 1, SYM is the window of BBUF at OFFSET (R32). -/
theorem Consistent.sym_eq_window {s : State} (h : Consistent s) (hv : s.status.symv = true) :
    s.sym = sliceWindow s.bbuf s.offset := by
  obtain ⟨-, hsym⟩ := h.sliced hv
  exact Symbols.ext_at fun j hj => (hsym j hj).trans (at_sliceWindow _ _ j hj).symm

/-- Settles O10: a record word that is not 0 means RVALID, and then the invariant says what SYM and REC hold. -/
theorem noPartialRecordVisible : Obligations.NoPartialRecordVisible := by
  unfold Obligations.NoPartialRecordVisible
  intro s k h hr
  have hvalid : s.status.rvalid = true := by
    by_contra hv
    exact hr (if_neg hv)
  obtain ⟨hsymv, hpass, -, hrec⟩ := h.validated hvalid
  obtain ⟨-, hsym⟩ := h.sliced hsymv
  rw [h.sym_eq_window hsymv] at hpass
  exact ⟨hvalid, hpass, fun j hj => by rw [hrec j hj, hsym j hj]⟩

end Sys2Proof.Machine

/-! PROOFS. What one step does to STATUS (spec/10_state.md R32, R37, spec/60_exceptions.md R190): every kind of step said once, and
from it what sets and what clears each bit. -/

namespace Sys2Proof.Machine

/-! ## Which address an access is to -/

/-- The fixed part of the map lists each register at its own offset (R51). -/
theorem fixedMap_lookup (p : Config.Params) {a : Nat} {r : Reg} (h : fixedMap.lookup a = some r) :
    a = r.addr ∧ r.mapped p = true := by
  obtain ⟨before, after, hsplit, -⟩ := List.lookup_eq_some_iff.1 h
  have hmem : (a, r) ∈ fixedMap := by rw [hsplit]; simp
  have hall : ∀ e ∈ fixedMap, e.1 = e.2.addr ∧ e.2.mapped p = true := by simp [fixedMap, Reg.addr, Reg.mapped]
  exact hall _ hmem

/-- A word-aligned address with a register is that register's offset, and the register exists (R51). -/
theorem regAt_eq_some {p : Config.Params} {a : Nat} {r : Reg} (ha : a % 4 = 0) (h : regAt p a = some r) :
    a = r.addr ∧ r.mapped p = true := by
  unfold regAt at h
  split_ifs at h with hfixed hsymw hk hrecw hk hgap hbwin hk hk
  · exact fixedMap_lookup p h
  all_goals
    cases h
    exact ⟨by simp only [Reg.addr]; omega, decide_eq_true hk⟩

/-- A supported access has size 4 and is to its register's offset (R51, R60). -/
theorem supported_eq_some {p : Config.Params} {a : Addr} {n : Nat} {r : Reg} (h : supported p a n = some r) :
    n = 4 ∧ a.toNat = r.addr ∧ r.mapped p = true := by
  unfold supported at h
  split at h
  · next hc =>
    obtain ⟨hn, ha⟩ := hc
    exact ⟨hn, regAt_eq_some ha h⟩
  · cases h

theorem supported_eq_cmd {p : Config.Params} {a : Addr} {n : Nat} (h : supported p a n = some .cmd) :
    a = 0x00004#20 ∧ n = 4 := by
  obtain ⟨hn, ha, -⟩ := supported_eq_some h
  exact ⟨BitVec.eq_of_toNat_eq ha, hn⟩

theorem supported_eq_status {p : Config.Params} {a : Addr} {n : Nat} (h : supported p a n = some .status) :
    a = 0x00008#20 ∧ n = 4 := by
  obtain ⟨hn, ha, -⟩ := supported_eq_some h
  exact ⟨BitVec.eq_of_toNat_eq ha, hn⟩

/-! ## What a step does to STATUS -/

/-- What a step from `s` to `t` can do to STATUS, and the turn that does it. -/
inductive StatusStep (s t : State) : Prop where
  /-- Nothing: an idle engine, a supported read, or a write that changes no flag. -/
  | same (h : t.status = s.status)
  /-- A reset (R200). -/
  | reset (turn : ∃ a rest, s.schedule = .reset a :: rest) (h : t.status = .reset)
  /-- The engine executes a pending CLR (R102). -/
  | cleared (now : CompletesNow s t) (clr : decode s.pend = .instr .clr)
      (err : t.status.err = false) (ovr : t.status.ovr = false) (berr : t.status.berr = false)
  /-- The engine completes another pending word (R182, R183, R187). -/
  | completed (now : CompletesNow s t) (err : t.status.err = s.status.err ∨ t.status.err = true ∧ t.status.fcode ≠ .ok)
      (ovr : t.status.ovr = s.status.ovr) (berr : t.status.berr = s.status.berr)
  /-- An unsupported access (R63). -/
  | unsupported (turn : ∃ a n rest, supported s.params a n = none ∧
        (s.schedule = .host (.read a n) :: rest ∨ ∃ v, s.schedule = .host (.write a n v) :: rest))
      (h : t.status = { s.status with berr := true })
  /-- A CMD write while BUSY = 1 (R62). -/
  | overrun (busy : s.status.busy = true) (turn : ∃ w rest, s.schedule = .host (.write 0x00004#20 4 w) :: rest)
      (h : t.status = { s.status with ovr := true })
  /-- A CMD write while BUSY = 0 (R37). -/
  | accepted (idle : s.status.busy = false) (turn : ∃ rest, s.schedule = .host (.write 0x00004#20 4 t.pend) :: rest)
      (h : t.status = { s.status with busy := true, done := false })
  /-- A STATUS write with bit 1 set (R54). -/
  | doneCleared (turn : ∃ w rest, w.getLsbD 1 = true ∧ s.schedule = .host (.write 0x00008#20 4 w) :: rest)
      (h : t.status = { s.status with done := false })

/-- With a command pending, the engine's turn clears the sticky bits by CLR, or keeps them but for the ERR of a fault
(R102, R182, R183). -/
theorem engineTurn_sticky {s t : State} (hb : s.status.busy = true) (h : s.engineTurn = .next t) :
    (decode s.pend = .instr .clr ∧ t.status.err = false ∧ t.status.ovr = false ∧ t.status.berr = false) ∨
      ((t.status.err = s.status.err ∨ t.status.err = true ∧ t.status.fcode ≠ .ok) ∧
        t.status.ovr = s.status.ovr ∧ t.status.berr = s.status.berr) := by
  rcases engineTurn_busy hb with ⟨i, hd, e⟩ | ⟨why, -, e⟩
  · by_cases hi : i = .clr
    · subst hi
      cases e.symm.trans h
      exact .inl ⟨hd, rfl, rfl, rfl⟩
    · obtain ⟨u, hu, rfl | ⟨c, n, hc, rfl⟩⟩ := exec_cases (e.symm.trans h)
      · exact .inr ⟨.inl (hu.err hi), hu.ovr hi, hu.berr hi⟩
      · exact .inr ⟨.inr ⟨rfl, hc⟩, hu.ovr hi, hu.berr hi⟩
  · cases e.symm.trans h
    exact .inr ⟨.inr ⟨rfl, nofun⟩, rfl, rfl⟩

/-- The engine's turn, from `s` less the turn taken, as a step from `s`. -/
theorem statusStep_engine {s s' t : State} (hturn : s.schedule = [] ∨ ∃ rest, s.schedule = .engine :: rest)
    (hs : s'.status = s.status) (hp : s'.pend = s.pend) (h : s'.engineTurn = .next t) : StatusStep s t := by
  cases hb : s.status.busy with
  | false =>
    rw [engineTurn_idle (hs ▸ hb)] at h
    cases h
    exact .same hs
  | true =>
    have hb' : s'.status.busy = true := hs ▸ hb
    obtain ⟨hbusy, hdone, -⟩ := engineTurn_completes hb' h
    have now : CompletesNow s t := ⟨hturn, hb, hbusy, hdone⟩
    rcases engineTurn_sticky hb' h with ⟨hd, he, ho, hr⟩ | ⟨he, ho, hr⟩
    · exact .cleared now (hp ▸ hd) he ho hr
    · exact .completed now (hs ▸ he) (hs ▸ ho) (hs ▸ hr)

theorem statusStep_read {s : State} {a : Addr} {n : Nat} {rest : List Turn} (h : s.schedule = .host (.read a n) :: rest) :
    StatusStep s (s.dropTurn.memRead a n) := by
  rcases memRead_cases s.dropTurn a n with ⟨hs, e⟩ | ⟨r, -, -, e⟩ | ⟨r, -, -, e⟩ <;> rw [e]
  · exact .unsupported ⟨a, n, rest, hs, .inl h⟩ rfl
  · rcases readBusy_cases s.dropTurn r with ⟨-, e'⟩ | ⟨-, e'⟩ | ⟨-, -, e'⟩ <;> rw [e'] <;> exact .same rfl
  · exact .same rfl

theorem statusStep_write {s : State} {a : Addr} {n : Nat} {v : Word} {rest : List Turn}
    (h : s.schedule = .host (.write a n v) :: rest) : StatusStep s (s.dropTurn.memWrite a n v) := by
  rcases memWrite_cases s.dropTurn a n v with ⟨hs, e⟩ | ⟨hs, hb, e⟩ | ⟨hs, hb, e⟩ | ⟨hs, hv, e⟩ | ⟨-, -, e⟩ | ⟨-, e⟩ |
    ⟨_, -, -, -, -, e⟩ <;> rw [e]
  · exact .unsupported ⟨a, n, rest, hs, .inr ⟨v, h⟩⟩ rfl
  · obtain ⟨rfl, rfl⟩ := supported_eq_cmd hs
    exact .overrun hb ⟨v, rest, h⟩ rfl
  · obtain ⟨rfl, rfl⟩ := supported_eq_cmd hs
    exact .accepted hb ⟨rest, h⟩ rfl
  · obtain ⟨rfl, rfl⟩ := supported_eq_status hs
    exact .doneCleared ⟨v, rest, hv, h⟩ rfl
  · exact .same rfl
  · exact .same rfl
  · exact .same rfl

/-- Every step does to STATUS one of the things StatusStep lists. -/
theorem statusStep_of_step {s t : State} (h : step s = .next t) : StatusStep s t := by
  rcases step_cases s with ⟨hn, e⟩ | ⟨rest, hn, e⟩ | ⟨a, rest, hn, e⟩ | ⟨a, rest, hn, e⟩
  · exact statusStep_engine (.inl hn) rfl rfl (e.symm.trans h)
  · exact statusStep_engine (s' := s.dropTurn) (.inr ⟨rest, hn⟩) rfl rfl (e.symm.trans h)
  · cases e.symm.trans h
    cases a with
    | read a n => exact statusStep_read hn
    | write a n v => exact statusStep_write hn
  · cases e.symm.trans h
    refine .reset ⟨a, rest, hn⟩ ?_
    rcases resetWith_cases s.dropTurn a with e' | ⟨-, e'⟩ <;> rw [e'] <;> rfl

/-! ## What sets and what clears each bit -/

namespace StatusStep

variable {s t : State}

theorem err_rises (h : StatusStep s t) (h0 : s.status.err = false) (h1 : t.status.err = true) :
    CompletesNow s t ∧ t.status.fcode ≠ .ok := by
  cases h with
  | completed now err =>
    rcases err with he | ⟨-, hc⟩
    · simp [he, h0] at h1
    · exact ⟨now, hc⟩
  | _ => simp_all [Status.reset]

theorem ovr_rises (h : StatusStep s t) (h0 : s.status.ovr = false) (h1 : t.status.ovr = true) :
    s.status.busy = true ∧ ∃ w rest, s.schedule = .host (.write 0x00004#20 4 w) :: rest := by
  cases h with
  | overrun busy turn => exact ⟨busy, turn⟩
  | _ => simp_all [Status.reset]

theorem berr_rises (h : StatusStep s t) (h0 : s.status.berr = false) (h1 : t.status.berr = true) :
    ∃ a n rest, supported s.params a n = none ∧
      (s.schedule = .host (.read a n) :: rest ∨ ∃ v, s.schedule = .host (.write a n v) :: rest) := by
  cases h with
  | unsupported turn => exact turn
  | _ => simp_all [Status.reset]

theorem sticky_falls (h : StatusStep s t)
    (hf : (s.status.err = true ∧ t.status.err = false) ∨ (s.status.ovr = true ∧ t.status.ovr = false) ∨
      (s.status.berr = true ∧ t.status.berr = false)) :
    (∃ a rest, s.schedule = .reset a :: rest) ∨ (CompletesNow s t ∧ decode s.pend = .instr .clr) := by
  cases h with
  | reset turn => exact .inl turn
  | cleared now clr => exact .inr ⟨now, clr⟩
  | completed now err ovr berr => rcases err with he | ⟨he, -⟩ <;> simp [he, ovr, berr] at hf
  | _ => simp_all

theorem busy_rises (h : StatusStep s t) (h0 : s.status.busy = false) (h1 : t.status.busy = true) :
    ∃ rest, s.schedule = .host (.write 0x00004#20 4 t.pend) :: rest := by
  cases h with
  | accepted _ turn => exact turn
  | cleared now | completed now => simp [now.busy] at h1
  | _ => simp_all [Status.reset]

theorem busy_falls (h : StatusStep s t) (h0 : s.status.busy = true) (h1 : t.status.busy = false) :
    (∃ a rest, s.schedule = .reset a :: rest) ∨ CompletesNow s t := by
  cases h with
  | reset turn => exact .inl turn
  | cleared now | completed now => exact .inr now
  | _ => simp_all

theorem done_rises (h : StatusStep s t) (h0 : s.status.done = false) (h1 : t.status.done = true) : CompletesNow s t := by
  cases h with
  | cleared now | completed now => exact now
  | _ => simp_all [Status.reset]

theorem done_falls (h : StatusStep s t) (h0 : s.status.done = true) (h1 : t.status.done = false) :
    (∃ a rest, s.schedule = .reset a :: rest) ∨
      (s.status.busy = false ∧ t.status.busy = true ∧ ∃ rest, s.schedule = .host (.write 0x00004#20 4 t.pend) :: rest) ∨
      ∃ w rest, w.getLsbD 1 = true ∧ s.schedule = .host (.write 0x00008#20 4 w) :: rest := by
  cases h with
  | reset turn => exact .inl turn
  | accepted idle turn h => exact .inr (.inl ⟨idle, by rw [h], turn⟩)
  | doneCleared turn => exact .inr (.inr turn)
  | cleared now | completed now => simp [now.done] at h1
  | _ => simp_all

end StatusStep

/-- Settles O11: a step is one of the kinds of StatusStep, and each of them moves the bits its clause names and no others. -/
theorem whoChangesTheStatusBits : Obligations.WhoChangesTheStatusBits := by
  unfold Obligations.WhoChangesTheStatusBits
  intro s t e
  have h := statusStep_of_step e
  exact ⟨h.err_rises, h.ovr_rises, h.berr_rises, h.sticky_falls, h.busy_rises, h.busy_falls, h.done_rises, h.done_falls⟩

end Sys2Proof.Machine

/-! PROOFS. The host port: the register map, what a read returns and what an access leaves unchanged (spec/20_memory.md R51 to
R65, R71). -/

namespace Sys2Proof.Machine

/-! ## The register map -/

section
variable {p : Config.Params} {r : Reg}

theorem Reg.addr_aligned (r : Reg) : r.addr % 4 = 0 := by
  cases r with
  | symw k | recw k | bwin k | iwin k => simp only [Reg.addr]; omega
  | _ => rfl

/-- On legal parameters the whole map lies in the 20-bit register space (R50, R51). -/
theorem Reg.addr_lt (hp : p.legal = true) (hr : r.mapped p = true) : r.addr < 2 ^ 20 := by
  obtain ⟨-, hint, -, hbit, -⟩ := (legal_iff p).1 hp
  cases r with
  | symw k | recw k =>
    have hk : k < 7 := of_decide_eq_true hr
    simp only [Reg.addr]; omega
  | bwin k =>
    have hk : k < (p.nBit + 31) / 32 := of_decide_eq_true hr
    simp only [Reg.addr]; omega
  | iwin k =>
    have hk : k < p.nInt := of_decide_eq_true hr
    simp only [Reg.addr]; omega
  | _ => simp [Reg.addr]

/-- Every register that exists stands in the map at its offset (R51). -/
theorem regAt_addr (hp : p.legal = true) (hr : r.mapped p = true) : regAt p r.addr = some r := by
  cases r with
  | symw k => exact regAt_symw p (of_decide_eq_true hr)
  | recw k => exact regAt_recw p (of_decide_eq_true hr)
  | bwin k => exact regAt_bwin hp (of_decide_eq_true hr)
  | iwin k => exact regAt_iwin (of_decide_eq_true hr)
  | _ => rfl

/-- A 4-byte access at a register's offset reaches it (R51, R60). -/
theorem supported_addr (hp : p.legal = true) (hr : r.mapped p = true) :
    supported p (BitVec.ofNat 20 r.addr) 4 = some r := by
  have ha : (BitVec.ofNat 20 r.addr).toNat = r.addr := by
    rw [BitVec.toNat_ofNat, Nat.mod_eq_of_lt (Reg.addr_lt hp hr)]
  rw [supported, ha, if_pos ⟨rfl, r.addr_aligned⟩, regAt_addr hp hr]

end

/-- Settles O16: a register that exists is reached at its offset, a supported access is to the offset of its register, and
the offsets and ranges are R51's. -/
theorem registerMap : Obligations.RegisterMap := by
  unfold Obligations.RegisterMap
  intro p hp
  have reached {r : Reg} (hr : r.mapped p = true) := supported_addr hp hr
  refine ⟨fun r hr => ⟨Reg.addr_lt hp hr, reached hr⟩, fun a n r h => supported_eq_some h,
    ⟨rfl, rfl, rfl, rfl, rfl, rfl, rfl, rfl, rfl, rfl, rfl, rfl⟩, fun k => ⟨fun hk => ⟨?_, ?_⟩, fun hk => ?_, fun hk => ?_⟩,
    fun k => ⟨decide_eq_true_iff, decide_eq_true_iff, decide_eq_true_iff, decide_eq_true_iff⟩⟩
  · exact reached (r := .symw k) (decide_eq_true hk)
  · exact reached (r := .recw k) (decide_eq_true hk)
  · exact reached (r := .bwin k) (decide_eq_true hk)
  · exact reached (r := .iwin k) (decide_eq_true hk)

/-! ## What a host access leaves unchanged -/

/-- One update after another changes what either changes. -/
theorem OnlyChanges.andThen {fs gs hs : List Field} {s t u : State} (h₁ : OnlyChanges fs s t) (h₂ : OnlyChanges gs t u)
    (hsub : fs ++ gs ⊆ hs := by simp) : OnlyChanges hs s u := by
  obtain ⟨hfs, hgs⟩ := List.append_subset.1 hsub
  exact (h₁.mono hfs).trans (h₂.mono hgs)

/-- The pieces of State that a host access can write. -/
def hostWritable : List Field :=
  [.busy, .done, .err, .ovr, .berr, .loc, .symv, .rvalid, .fcode, .ie, .pend, .rdata, .draws]

/-- For an update of those pieces only, a frame is checked on them. -/
theorem OnlyChanges.of_hostWritable {fs : List Field} {s t : State}
    (h : t = { s with status := t.status, ie := t.ie, pend := t.pend, rdata := t.rdata, draws := t.draws })
    (hsame : ∀ f ∈ hostWritable, f ∉ fs → f.Same s t) : OnlyChanges fs s t := by
  intro f hf
  by_cases hw : f ∈ hostWritable
  · exact hsame f hw hf
  · rw [h]
    cases f with
    | ibuf | bbuf => exact fun _ => rfl
    | params | icnt | bcnt | base8 | offset | sym | record | fidx | xsum | schedule => rfl
    | _ => simp [hostWritable] at hw

section
variable (s : State) (w : Word)

theorem onlyChanges_returnWord : OnlyChanges [.rdata] s (s.returnWord w) :=
  .of_hostWritable rfl (by simp [hostWritable, Field.Same])

theorem onlyChanges_drawRead : OnlyChanges [.rdata, .draws] s s.drawRead :=
  .of_hostWritable rfl (by simp [hostWritable, Field.Same])

theorem onlyChanges_setOvr : OnlyChanges [.ovr] s s.setOvr :=
  .of_hostWritable rfl (by simp [hostWritable, Field.Same])

theorem onlyChanges_setBerr : OnlyChanges [.berr] s s.setBerr :=
  .of_hostWritable rfl (by simp [hostWritable, Field.Same])

theorem onlyChanges_writeCtrl : OnlyChanges [.ie] s (s.writeCtrl w) :=
  .of_hostWritable rfl (by simp [hostWritable, Field.Same])

end

/-! ## Unsupported accesses -/

section
variable {s : State} {a : Addr} {n : Nat}

theorem memRead_unsupported (h : supported s.params a n = none) : s.memRead a n = s.setBerr.returnWord 0#32 := by
  simp [State.memRead, h]

theorem memWrite_unsupported (v : Word) (h : supported s.params a n = none) : s.memWrite a n v = s.setBerr := by
  simp [State.memWrite, h]

/-- An unsupported read writes BERR and `rdata` (R63). -/
theorem onlyChanges_memRead_unsupported (h : supported s.params a n = none) :
    OnlyChanges [.rdata, .berr] s (s.memRead a n) := by
  rw [memRead_unsupported h]
  exact (onlyChanges_setBerr s).andThen (onlyChanges_returnWord _ _)

/-- A wrong size, a misaligned address and an address without a register each make an access unsupported (R63). -/
theorem supported_eq_none {p : Config.Params}
    (h : n ≠ 4 ∨ a.toNat % 4 ≠ 0 ∨ ∀ r : Reg, r.mapped p = true → r.addr ≠ a.toNat) : supported p a n = none := by
  rw [Option.eq_none_iff_forall_ne_some]
  intro r hr
  obtain ⟨hn, ha, hm⟩ := supported_eq_some hr
  rcases h with h | h | h
  · exact h hn
  · exact h (ha ▸ r.addr_aligned)
  · exact h r hm ha.symm

end

/-- Settles O15: each of the three causes leaves no register to reach, and then the access is BERR and a 0. -/
theorem unsupportedAccess : Obligations.UnsupportedAccess := by
  unfold Obligations.UnsupportedAccess
  intro s a n v _ h
  have hnone := supported_eq_none h
  have hframe := onlyChanges_memRead_unsupported hnone
  rw [memRead_unsupported hnone] at hframe ⊢
  rw [memWrite_unsupported v hnone]
  exact ⟨⟨rfl, rfl, hframe⟩, rfl, onlyChanges_setBerr s⟩

/-! ## Supported reads -/

section
variable {s : State} {a : Addr} {n : Nat} {r : Reg}

theorem memRead_idle (hb : s.status.busy = false) (h : supported s.params a n = some r) :
    s.memRead a n = s.returnWord (s.readReg r) := by simp [State.memRead, h, hb]

theorem memRead_busy (hb : s.status.busy = true) (h : supported s.params a n = some r) :
    s.memRead a n = s.readBusy r := by simp [State.memRead, h, hb]

/-- ID, NINT, NBIT, CTRL and CMD read their value, busy or not (R53, R65). -/
theorem memRead_exact (he : r.exactWhileBusy = true) (h : supported s.params a n = some r) :
    s.memRead a n = s.returnWord (s.readReg r) := by
  cases hb : s.status.busy with
  | false => exact memRead_idle hb h
  | true => rw [memRead_busy hb h, State.readBusy, if_pos he]

/-- A busy read of a register that is neither exact nor STATUS draws a free value (R65). -/
theorem memRead_drawn (hb : s.status.busy = true) (he : r.exactWhileBusy = false) (hr : r ≠ .status)
    (h : supported s.params a n = some r) : s.memRead a n = s.drawRead := by
  simp [memRead_busy hb h, State.readBusy, he, hr]

/-- A supported read writes `rdata` and may draw a free value (R65, R68). -/
theorem onlyChanges_memRead_supported (h : supported s.params a n = some r) :
    OnlyChanges [.rdata, .draws] s (s.memRead a n) := by
  have hreturn (t : State) (w : Word) : OnlyChanges [.rdata, .draws] t (t.returnWord w) :=
    (onlyChanges_returnWord t w).mono (by simp)
  cases hb : s.status.busy with
  | false => rw [memRead_idle hb h]; exact hreturn s _
  | true =>
    rw [memRead_busy hb h]
    rcases readBusy_cases s r with ⟨-, e⟩ | ⟨-, e⟩ | ⟨-, -, e⟩ <;> rw [e]
    · exact hreturn s _
    · exact (onlyChanges_drawRead s).trans (hreturn _ _)
    · exact onlyChanges_drawRead s

/-- While BUSY = 0 a read at a register's offset returns its value (R60). -/
theorem rdata_memRead_idle (hp : s.params.legal = true) (hr : r.mapped s.params = true) (hb : s.status.busy = false) :
    (s.memRead (BitVec.ofNat 20 r.addr) 4).rdata = s.readReg r := by
  rw [memRead_idle hb (supported_addr hp hr)]; rfl

end

/-- Settles O18: an unsupported read is BERR and a 0, a supported one writes `rdata` and may draw. -/
theorem readsHaveNoSideEffects : Obligations.ReadsHaveNoSideEffects := by
  unfold Obligations.ReadsHaveNoSideEffects
  intro s a n
  cases h : supported s.params a n with
  | none => exact ⟨(onlyChanges_memRead_unsupported h).mono (by simp), fun hne => absurd rfl hne⟩
  | some r =>
    have hread := onlyChanges_memRead_supported h
    exact ⟨hread.mono (by simp), fun _ => hread⟩

/-! ## What the registers read -/

/-- A count of at most 2^16 is read exactly (R51). -/
theorem toNat_countWord {n : Nat} (h : n ≤ 65536) : (countWord n).toNat = n := by
  rw [countWord, BitVec.toNat_ofNat]; omega

/-- No register shows the schedule. -/
theorem readReg_schedule (s : State) (ts : List Turn) (r : Reg) : State.readReg { s with schedule := ts } r = s.readReg r := by
  cases r <;> rfl

/-- Settles O17: the turn's read returns the register, and in a consistent state every count fits its word. -/
theorem supportedReadReturnsRegister : Obligations.SupportedReadReturnsRegister := by
  unfold Obligations.SupportedReadReturnsRegister
  refine ⟨fun s r rest hp hr hb h => ?_, fun s hc => ?_⟩
  · have hread := memRead_idle (s := { s with schedule := rest }) hb (supported_addr hp hr)
    exact ⟨_, (step_takeTurn h).trans (congrArg Host.Outcome.next hread), readReg_schedule s rest r,
      (onlyChanges_schedule s rest).andThen (onlyChanges_returnWord _ _)⟩
  · obtain ⟨-, hint, -, hbit, -⟩ := (legal_iff _).1 hc.legal
    have hxsum : (s.readReg .xsum).toNat = s.xsum.toNat := BitVec.toNat_setWidth_of_le (by decide)
    exact ⟨rfl, rfl, toNat_countWord (hc.icntFits.trans hint), toNat_countWord (hc.bcntFits.trans hbit), rfl,
      toNat_countWord (hc.fidxFits.trans hbit), toNat_countWord (hc.offsetFits.trans hbit), hxsum, toNat_countWord hint,
      toNat_countWord hbit⟩

/-! ## Reads while BUSY = 1 -/

section
variable (u : Status) (free : Word)

/-- A busy read of STATUS takes each bit from the free value or from STATUS (R65). -/
theorem Status.getLsbD_busyWord (k : Nat) : (u.busyWord free).getLsbD k =
    if Status.freeMask.getLsbD k then free.getLsbD k else u.word.getLsbD k := by
  rw [Status.busyWord, BitVec.getLsbD_or, BitVec.getLsbD_and, BitVec.getLsbD_and]
  cases hk : Status.freeMask.getLsbD k with
  | true => simp [hk]
  | false => simpa [hk] using BitVec.lt_of_getLsbD

theorem Status.word_bit_reserved {k : Nat} (hk : 12 ≤ k) : u.word.getLsbD k = false := by
  have h := congrArg (BitVec.getLsbD · (k - 12)) u.word_reserved
  have hsum : 12 + (k - 12) = k := by omega
  simp only [BitVec.getLsbD_extractLsb', hsum] at h
  by_cases hlt : k < 32
  · simpa [show k - 12 < 20 by omega] using h
  · exact BitVec.getLsbD_of_ge _ _ (by omega)

theorem Status.freeMask_reserved {k : Nat} (hk : 12 ≤ k) : Status.freeMask.getLsbD k = false := by
  have hlt : Status.freeMask.toNat < 2 ^ k := calc
    Status.freeMask.toNat < 2 ^ 12 := by decide
    _ ≤ 2 ^ k := Nat.pow_le_pow_right (by decide) hk
  exact Nat.testBit_lt_two_pow hlt

end

/-- A busy read of STATUS draws a free value for the bits R65 leaves open. -/
theorem memRead_status_busy {s : State} (hb : s.status.busy = true) :
    s.memRead 0x00008#20 4 = s.drawRead.returnWord (s.status.busyWord (Config.freeWord s.draws)) :=
  memRead_busy hb (supported_status _)

/-- Settles O19: the exact registers read their value, STATUS its exact bits, the others draw. -/
theorem readsWhileBusy : Obligations.ReadsWhileBusy := by
  unfold Obligations.ReadsWhileBusy
  intro s r hc hr
  have hs := supported_addr hc.legal hr
  refine ⟨fun _ hmem => ?_, fun hb _ => ?_, fun hb hmem => ?_, rdata_memRead_idle hc.legal hr⟩
  · have he : r.exactWhileBusy = true := by
      simp only [List.mem_cons, List.not_mem_nil, or_false] at hmem
      rcases hmem with rfl | rfl | rfl | rfl <;> rfl
    rw [memRead_exact he hs]; rfl
  · obtain ⟨hbusy, hdone, -, hovr, hberr, -⟩ := Status.word_flags s.status
    have hbit := Status.getLsbD_busyWord s.status (Config.freeWord s.draws)
    refine ⟨_, memRead_status_busy hb, rfl, ?_, ?_, ?_, ?_, fun k hk => ?_, fun k hk => ?_⟩
    · exact (hbit 0).trans (hbusy.trans hb)
    · exact (hbit 1).trans (hdone.trans (hc.busyNotDone hb))
    · exact (hbit 3).trans hovr
    · exact (hbit 4).trans hberr
    · refine (hbit k).trans ?_
      rw [Status.freeMask_reserved hk]
      exact s.status.word_bit_reserved hk
    · have hfree : ∀ k ∈ [2, 5, 6, 7, 8, 9, 10, 11], Status.freeMask.getLsbD k = true := by decide
      exact (hbit k).trans (if_pos (hfree k hk))
  · have he : r.exactWhileBusy = false := by
      cases r with
      | id | cmd | nint | nbit | ctrl => simp at hmem
      | _ => rfl
    have hne : r ≠ .status := by rintro rfl; simp at hmem
    exact ⟨_, memRead_drawn hb he hne hs, rfl, rfl⟩

/-! ## The windows -/

/-- Settles O23: BWIN[k] is the packed word of the visible bits. -/
theorem bwinShowsTheBitstream : Obligations.BwinShowsTheBitstream := by
  unfold Obligations.BwinShowsTheBitstream
  intro s k j hp hb hk hj
  have hread : (s.memRead (BitVec.ofNat 20 (0x10000 + 4 * k)) 4).rdata = s.bwinWord k :=
    rdata_memRead_idle (r := .bwin k) hp (decide_eq_true hk) hb
  rw [hread, getLsbD_bwinWord s k j hj, State.visibleBit]
  split <;> rfl

/-- Settles O24: IWIN[k] is the interval in 32 bits, which lose nothing of its 28. -/
theorem iwinShowsTheIntervals : Obligations.IwinShowsTheIntervals := by
  unfold Obligations.IwinShowsTheIntervals
  intro s k hp hb hk
  have hread : (s.memRead (BitVec.ofNat 20 (0x40000 + 4 * k)) 4).rdata = s.iwinWord k :=
    rdata_memRead_idle (r := .iwin k) hp (decide_eq_true hk) hb
  rw [hread, State.iwinWord]
  split
  · exact BitVec.toNat_setWidth_of_le (by decide)
  · rfl

theorem extractLsb'_packSymbols (v : Symbols) (k : Nat) {j : Nat} (hj : j < 4) :
    (packSymbols v k).extractLsb' (8 * j) 8 = v.at (4 * k + j) := by
  obtain ⟨h0, h1, h2, h3⟩ := packSymbols_byte v k
  match j, hj with
  | 0, _ => exact h0
  | 1, _ => exact h1
  | 2, _ => exact h2
  | 3, _ => exact h3

/-- A byte of a symbol window: the symbol, where there is one and the window's flag is set (R58). -/
theorem extractLsb'_symbolWindow (v : Symbols) (valid : Bool) (k : Nat) {j : Nat} (hj : j < 4) :
    (if valid then packSymbols v k else 0#32).extractLsb' (8 * j) 8 =
      if 4 * k + j ≤ 24 ∧ valid = true then v.at (4 * k + j) else 0#8 := by
  cases valid with
  | false => simp
  | true =>
    rw [if_pos rfl, extractLsb'_packSymbols v k hj]
    by_cases h : 4 * k + j ≤ 24
    · rw [if_pos ⟨h, rfl⟩]
    · rw [if_neg fun hc => h hc.1, Symbols.at_of_ge v (by omega)]

/-- Settles O25: SYMWk is SYM's window under SYMV, RECWk is REC's under RVALID. -/
theorem symbolWindows : Obligations.SymbolWindows := by
  unfold Obligations.SymbolWindows
  intro s k j hp hb hk hj
  have hsymw : (s.memRead (BitVec.ofNat 20 (0x40 + 4 * k)) 4).rdata = s.readReg (.symw k) :=
    rdata_memRead_idle (r := .symw k) hp (decide_eq_true hk) hb
  have hrecw : (s.memRead (BitVec.ofNat 20 (0x60 + 4 * k)) 4).rdata = s.readReg (.recw k) :=
    rdata_memRead_idle (r := .recw k) hp (decide_eq_true hk) hb
  rw [hsymw, hrecw]
  exact ⟨extractLsb'_symbolWindow s.sym s.status.symv k hj, extractLsb'_symbolWindow s.record s.status.rvalid k hj⟩

/-! ## Writes -/

theorem memWrite_readOnly {s : State} {a : Addr} {n : Nat} {r : Reg} (v : Word) (h : supported s.params a n = some r)
    (hr : r ∉ [.cmd, .status, .ctrl]) : s.memWrite a n v = s := by
  rw [State.memWrite, h]
  cases r with
  | cmd | status | ctrl => simp at hr
  | _ => rfl

/-- Settles O22: no supported write but to CMD, STATUS and CTRL has an effect. -/
theorem readOnlyWritesIgnored : Obligations.ReadOnlyWritesIgnored := by
  unfold Obligations.ReadOnlyWritesIgnored
  intro s r v hp hr hmem
  exact memWrite_readOnly v (supported_addr hp hr) hmem

theorem ctrlWord_eq (ie : Bool) : ctrlWord ie = (BitVec.ofBool ie).setWidth 32 := by cases ie <;> rfl

/-- Settles O21: CTRL reads exactly, busy or not, and a write takes bit 0 into IE. -/
theorem ctrlRegister : Obligations.CtrlRegister := by
  unfold Obligations.CtrlRegister
  intro s w
  rw [memRead_exact (r := .ctrl) rfl (supported_ctrl _), memWrite_ctrl]
  exact ⟨ctrlWord_eq s.ie, rfl, onlyChanges_writeCtrl s w⟩

theorem writeCmd_busy {s : State} (w : Word) (hb : s.status.busy = true) : s.writeCmd w = s.setOvr := if_pos hb

/-- A CMD write that takes its turn while BUSY = 1 is an overrun (R62). -/
theorem step_overrun {s : State} {w : Word} {rest : List Turn} (h : s.schedule = .host (.write 0x00004#20 4 w) :: rest)
    (hb : s.status.busy = true) : step s = .next (State.setOvr { s with schedule := rest }) :=
  (step_takeTurn h).trans (congrArg Host.Outcome.next (writeCmd_busy w hb))

/-- Settles O13: the turn's write is an overrun, which sets OVR. -/
theorem commandOverrun : Obligations.CommandOverrun := by
  unfold Obligations.CommandOverrun
  intro s w rest h hb
  exact ⟨_, step_overrun h hb, rfl, rfl, (onlyChanges_schedule s rest).andThen (onlyChanges_setOvr _)⟩

/-! ## A CMD write that races a completion -/

/-- A CMD write that takes its turn while BUSY = 0 is accepted (R37). -/
theorem step_accept {s : State} {w : Word} {rest : List Turn} (h : s.schedule = .host (.write 0x00004#20 4 w) :: rest)
    (hb : s.status.busy = false) : step s = .next (State.accept { s with schedule := rest } w) :=
  (step_takeTurn h).trans (congrArg Host.Outcome.next (writeCmd_idle _ w hb))

/-- With a command pending, the engine's turn completes it and keeps PEND and the schedule (R181 to R183, R187). -/
theorem engineTurn_pending {s : State} (hb : s.status.busy = true) :
    ∃ t, s.engineTurn = .next t ∧ t.status.busy = false ∧ t.status.done = true ∧ t.pend = s.pend ∧
      t.schedule = s.schedule := by
  rcases engineTurn_busy hb with ⟨i, -, e⟩ | ⟨why, -, e⟩ <;> rw [e]
  · rw [exec_eq_body]
    obtain ⟨u, hu, ht | ⟨c, n, -, ht⟩⟩ := exec_cases (exec_eq_body i s) <;> rw [ht] <;>
      exact ⟨_, rfl, rfl, rfl, hu.pend, hu.schedule⟩
  · exact ⟨_, rfl, rfl, rfl, rfl, rfl⟩

theorem step_engine_pending {s : State} {rest : List Turn} (h : s.schedule = .engine :: rest)
    (hb : s.status.busy = true) :
    ∃ t, step s = .next t ∧ t.status.busy = false ∧ t.status.done = true ∧ t.pend = s.pend ∧ t.schedule = rest := by
  rw [step_takeTurn h]
  exact engineTurn_pending (s := { s with schedule := rest }) hb

/-- A run of two steps. -/
theorem run_two {s t u : State} (h₁ : step s = .next t) (h₂ : step t = .next u) : Sys2Proof.core.run 2 s = .next u :=
  (run_succ 1 h₁).trans ((run_succ 0 h₂).trans (run_zero u))

/-- Settles O14: behind the engine's turn the write finds BUSY = 0, before it the write is an overrun and the pending command
completes. -/
theorem racingWriteHasBothOutcomes : Obligations.RacingWriteHasBothOutcomes := by
  unfold Obligations.RacingWriteHasBothOutcomes
  intro s w hb
  constructor
  · obtain ⟨t, hcompleted, hidle, -, -, hsched⟩ :=
      step_engine_pending (s := { s with schedule := [.engine, .host (.write 0x00004#20 4 w)] }) rfl hb
    exact ⟨_, run_two hcompleted (step_accept hsched hidle), rfl, rfl, rfl⟩
  · have hdropped : step { s with schedule := [.host (.write 0x00004#20 4 w), .engine] } =
        .next (State.setOvr { s with schedule := [.engine] }) := step_overrun rfl hb
    obtain ⟨t, hcompleted, hidle, hdone, hpend, -⟩ :=
      step_engine_pending (s := State.setOvr { s with schedule := [.engine] }) rfl hb
    exact ⟨t, run_two hdropped hcompleted, hidle, hpend, hdone⟩

end Sys2Proof.Machine

/-! PROOFS. The decoder and the encoder: they invert each other on the legal words, and which words are illegal
(spec/30_encoding.md R80 to R89). -/

namespace Sys2Proof

/-! ## The fields of a word as numbers -/

section
variable (w : Word)

theorem toNat_opField : (opField w).toNat = w.toNat / 2 ^ 28 := by
  rw [opField, BitVec.extractLsb'_toNat, Nat.shiftRight_eq_div_pow]
  omega

theorem toNat_operandField : (operandField w).toNat = w.toNat % 2 ^ 28 := by
  rw [operandField, BitVec.extractLsb'_toNat, Nat.shiftRight_zero]

theorem toNat_ldbZeroField : (ldbZeroField w).toNat = w.toNat / 2 ^ 21 % 2 ^ 7 := by
  rw [ldbZeroField, BitVec.extractLsb'_toNat, Nat.shiftRight_eq_div_pow]

theorem toNat_nbField : (nbField w).toNat = w.toNat / 2 ^ 16 % 2 ^ 5 := by
  rw [nbField, BitVec.extractLsb'_toNat, Nat.shiftRight_eq_div_pow]

theorem toNat_bdataField : (bdataField w).toNat = w.toNat % 2 ^ 16 := by
  rw [bdataField, BitVec.extractLsb'_toNat, Nat.shiftRight_zero]

/-- A word is its opcode and the three fields of format B (R80, R83). -/
theorem word_eq_append_ldbFields : w = opField w ++ ldbZeroField w ++ nbField w ++ bdataField w := by
  apply BitVec.eq_of_getLsbD_eq
  intro k hk
  simp only [opField, ldbZeroField, nbField, bdataField, BitVec.getLsbD_append, BitVec.getLsbD_extractLsb']
  grind

end

/-- R83 in arithmetic: NB is 1 to 16, and BDATA has at most NB bits. -/
theorem wellFormed_ldb_iff (nb : BitVec 5) (d : BitVec 16) :
    (Instr.ldb nb d).WellFormed ↔ 1 ≤ nb.toNat ∧ nb.toNat ≤ 16 ∧ d.toNat < 2 ^ nb.toNat := by
  have hshift : d >>> nb.toNat = 0#16 ↔ d.toNat < 2 ^ nb.toNat := by
    rw [← BitVec.toNat_inj, BitVec.toNat_ushiftRight, Nat.shiftRight_eq_div_pow]
    exact Nat.div_eq_zero_iff_lt (Nat.two_pow_pos _)
  simp only [Instr.WellFormed, Instr.wellFormed, Bool.and_eq_true, decide_eq_true_eq, beq_iff_eq, hshift, and_assoc]

/-! ## Decoding by the format of the opcode -/

/-- The commands of format N: an opcode and no operand (R81, R85). -/
def formatN : List Instr := [.nop, .clr, .dec, .fnd, .ext, .chk, .val]

theorem encode_formatN {i : Instr} (h : i ∈ formatN) : encode i = i.op ++ 0#28 := by
  revert i; decide

theorem wellFormed_formatN {i : Instr} (h : i ∈ formatN) : i.WellFormed := by
  revert i; decide

theorem toNat_op_formatN {i : Instr} (h : i ∈ formatN) : i.op.toNat ∈ [0, 1, 4, 5, 6, 7, 8] := by
  revert i; decide

/-- What the decoder answers, by the format of the word's opcode (R85, R86). -/
theorem decode_cases (w : Word) :
    (∃ i ∈ formatN, opField w = i.op ∧ decode w = decodeN i w) ∨
      (opField w = 0x2#4 ∧ decode w = .instr (.ldi (operandField w))) ∨
      (opField w = 0x3#4 ∧ decode w = decodeB w) ∨
      (9 ≤ (opField w).toNat ∧ decode w = .illegal .reservedOpcode) := by
  unfold decode
  split_ifs with h0 h1 h2 h3 h4 h5 h6 h7 h8
  · exact .inl ⟨.nop, by decide, h0, rfl⟩
  · exact .inl ⟨.clr, by decide, h1, rfl⟩
  · exact .inr (.inl ⟨h2, rfl⟩)
  · exact .inr (.inr (.inl ⟨h3, rfl⟩))
  · exact .inl ⟨.dec, by decide, h4, rfl⟩
  · exact .inl ⟨.fnd, by decide, h5, rfl⟩
  · exact .inl ⟨.ext, by decide, h6, rfl⟩
  · exact .inl ⟨.chk, by decide, h7, rfl⟩
  · exact .inl ⟨.val, by decide, h8, rfl⟩
  · exact .inr (.inr (.inr ⟨by bv_omega, rfl⟩))

theorem decode_of_op_ldb {w : Word} (h : opField w = 0x3#4) : decode w = decodeB w := by
  simp [decode, h]

/-! ## Decoding and encoding invert each other -/

theorem decode_encode_formatN {i : Instr} (h : i ∈ formatN) : decode (encode i) = .instr i := by
  revert i; decide

theorem decode_encode_ldi (v : Interval) : decode (encode (.ldi v)) = .instr (.ldi v) := by
  simp [encode, decode]

theorem decode_encode_ldb {nb : BitVec 5} {d : BitVec 16} (h : (Instr.ldb nb d).WellFormed) :
    decode (encode (.ldb nb d)) = .instr (.ldb nb d) := by
  rw [decode_of_op_ldb (opField_ldb nb d)]
  rcases decodeB_cases (encode (.ldb nb d)) with ⟨-, -, e⟩ | ⟨hn, -⟩
  · rw [e, nbField_ldb, bdataField_ldb]
  · rw [nbField_ldb, bdataField_ldb] at hn
    exact absurd ⟨h, ldbZeroField_ldb nb d⟩ hn

/-- Settles O1: by the format of the command; LDB's word gives back its three fields, and R83 is its well-formedness. -/
theorem decodeOfEncode : Obligations.DecodeOfEncode := by
  unfold Obligations.DecodeOfEncode
  intro i h
  cases i with
  | ldi v => exact decode_encode_ldi v
  | ldb nb d => exact decode_encode_ldb h
  | _ => exact decode_encode_formatN (by decide)

/-- Settles O2: whichever format decodes the word, the word is its opcode and the fields the command is made of. -/
theorem encodeOfDecode : Obligations.EncodeOfDecode := by
  unfold Obligations.EncodeOfDecode
  intro w i h
  rcases decode_cases w with ⟨j, hj, hop, e⟩ | ⟨hop, e⟩ | ⟨hop, e⟩ | ⟨-, e⟩ <;> rw [e] at h
  · rcases decodeN_eq j w with ⟨hz, e'⟩ | ⟨-, e'⟩ <;> cases e'.symm.trans h
    refine ⟨wellFormed_formatN hj, ?_⟩
    rw [encode_formatN hj, ← hop, ← hz, ← word_eq_append]
  · cases h
    refine ⟨rfl, ?_⟩
    rw [encode, ← hop, ← word_eq_append]
  · rcases decodeB_cases w with ⟨hwf, hz, e'⟩ | ⟨-, why, e'⟩ <;> cases e'.symm.trans h
    refine ⟨hwf, ?_⟩
    rw [encode, ← hop, ← hz, ← word_eq_append_ldbFields]
  · cases h

/-- Settles O4: each word is a literal, which the decoder runs on. -/
theorem wordsOfEachFormat : Obligations.WordsOfEachFormat := by
  unfold Obligations.WordsOfEachFormat
  decide

/-! ## Illegal words -/

theorem decodeN_illegal_iff (i : Instr) (w : Word) : (∃ why, decodeN i w = .illegal why) ↔ w.toNat % 2 ^ 28 ≠ 0 := by
  have hzero : operandField w = 0#28 ↔ w.toNat % 2 ^ 28 = 0 := by
    rw [← BitVec.toNat_inj, toNat_operandField]; rfl
  rw [ne_eq, ← hzero]
  rcases decodeN_eq i w with ⟨hz, e⟩ | ⟨hz, e⟩ <;> simp [e, hz]

theorem decodeB_illegal_iff (w : Word) : (∃ why, decodeB w = .illegal why) ↔
    ¬(w.toNat / 2 ^ 21 % 2 ^ 7 = 0 ∧ 1 ≤ w.toNat / 2 ^ 16 % 2 ^ 5 ∧ w.toNat / 2 ^ 16 % 2 ^ 5 ≤ 16 ∧
      w.toNat % 2 ^ 16 < 2 ^ (w.toNat / 2 ^ 16 % 2 ^ 5)) := by
  have hzero : ldbZeroField w = 0#7 ↔ w.toNat / 2 ^ 21 % 2 ^ 7 = 0 := by
    rw [← BitVec.toNat_inj, toNat_ldbZeroField]; rfl
  have hcases := decodeB_cases w
  rw [wellFormed_ldb_iff, hzero, toNat_nbField, toNat_bdataField] at hcases
  rcases hcases with ⟨hwf, hz, e⟩ | ⟨hn, he⟩
  · simp only [e, reduceCtorEq, exists_false, false_iff, not_not]
    exact ⟨hz, hwf⟩
  · exact ⟨fun _ h => hn h.symm, fun _ => he⟩

/-- Which words are illegal: a reserved opcode, an operand where format N has none, or an LDB that breaks R83 (R87). -/
theorem decode_illegal_iff (w : Word) : (∃ why, decode w = .illegal why) ↔
    (9 ≤ w.toNat / 2 ^ 28 ∨ (w.toNat / 2 ^ 28 ∈ [0, 1, 4, 5, 6, 7, 8] ∧ w.toNat % 2 ^ 28 ≠ 0) ∨
      (w.toNat / 2 ^ 28 = 3 ∧ ¬(w.toNat / 2 ^ 21 % 2 ^ 7 = 0 ∧ 1 ≤ w.toNat / 2 ^ 16 % 2 ^ 5 ∧
        w.toNat / 2 ^ 16 % 2 ^ 5 ≤ 16 ∧ w.toNat % 2 ^ 16 < 2 ^ (w.toNat / 2 ^ 16 % 2 ^ 5)))) := by
  rw [← decodeB_illegal_iff, ← toNat_opField]
  rcases decode_cases w with ⟨i, hi, hop, e⟩ | ⟨hop, e⟩ | ⟨hop, e⟩ | ⟨hop, e⟩ <;> rw [e]
  · rw [decodeN_illegal_iff i w, hop]
    have hmem := toNat_op_formatN hi
    have hlow : i.op.toNat < 9 ∧ i.op.toNat ≠ 3 := by simp at hmem; omega
    simp [hmem, hlow]
  · simp [hop]
  · simp [hop]
  · simp [hop]

theorem decode_nop {w : Word} (h : decode w = .instr .nop) : w = 0x00000000#32 := by
  obtain ⟨-, he⟩ := encodeOfDecode w .nop h
  exact he.symm.trans (by decide)

open Sys2Proof.Machine in
/-- Settles O3: the decoder's cases, the engine's turn on an illegal word, and that NOP has one word. -/
theorem illegalWords : Obligations.IllegalWords := by
  unfold Obligations.IllegalWords
  exact ⟨decode_illegal_iff,
    fun s why hb hd => ⟨s.raise .illegal 0, engineTurn_illegal hb hd, completedFault_raise .., onlyChanges_raise s _ _⟩,
    fun _ => decode_nop⟩

end Sys2Proof

/-! PROOFS. A WAIT of a host program ends with BUSY read as 0 (spec/30_encoding.md R91, spec/70_reset_and_hazards.md R210). -/

namespace Sys2Proof.Machine

/-- A WAIT with one more poll reads STATUS once more first. -/
theorem waitTurns_succ (polls : Nat) : waitTurns (polls + 1) = readTurn .status :: waitTurns polls := rfl

/-- A WAIT's poll is a 4-byte read of 0x00008 (R51, R91). -/
theorem step_readStatus {s : State} {rest : List Turn} (h : s.schedule = readTurn .status :: rest) :
    step s = .next (State.memRead { s with schedule := rest } 0x00008#20 4) := step_takeTurn h

theorem schedule_memRead (s : State) (a : Addr) (n : Nat) : (s.memRead a n).schedule = s.schedule := by
  obtain ⟨hframe, -⟩ := readsHaveNoSideEffects s a n
  exact hframe .schedule (by decide)

/-- The engine's turn leaves BUSY = 0, whether a command was pending or not (R181 to R183). -/
theorem step_engine_idle {s : State} {rest : List Turn} (h : s.schedule = .engine :: rest) :
    ∃ t, step s = .next t ∧ t.status.busy = false ∧ t.schedule = rest := by
  cases hb : s.status.busy with
  | true =>
    obtain ⟨t, e, hbusy, -, -, hsched⟩ := step_engine_pending h hb
    exact ⟨t, e, hbusy, hsched⟩
  | false => exact ⟨_, (step_takeTurn h).trans (engineTurn_idle hb), hb, rfl⟩

/-- A read of STATUS while BUSY = 0 finds bit 0 of it 0 and leaves BUSY = 0. -/
theorem step_readStatus_idle {s : State} {rest : List Turn} (h : s.schedule = readTurn .status :: rest)
    (hb : s.status.busy = false) :
    ∃ t, step s = .next t ∧ t.status.busy = false ∧ t.schedule = rest ∧ t.rdata.getLsbD 0 = false := by
  have e := memRead_idle (s := { s with schedule := rest }) hb (supported_status _)
  refine ⟨_, (step_readStatus h).trans (congrArg Host.Outcome.next e), hb, rfl, ?_⟩
  obtain ⟨hbusy, -⟩ := Status.word_flags s.status
  exact hbusy.trans hb

/-- Settles O30: by induction on the polls, each a read; then the engine's turn leaves BUSY = 0 and the last read finds it. -/
theorem waitEnds : Obligations.WaitEnds := by
  unfold Obligations.WaitEnds
  intro s polls rest h
  induction polls generalizing s with
  | zero =>
    obtain ⟨t, ht, hidle, hsched⟩ := step_engine_idle h
    obtain ⟨u, hu, hread⟩ := step_readStatus_idle hsched hidle
    exact ⟨u, run_two ht hu, hread⟩
  | succ polls ih =>
    rw [waitTurns_succ] at h
    obtain ⟨u, hu, hend⟩ := ih _ (schedule_memRead { s with schedule := waitTurns polls ++ rest } 0x00008#20 4)
    exact ⟨u, (run_succ _ (step_readStatus h)).trans hu, hend⟩

end Sys2Proof.Machine

/-! PROOFS. The assembler: the words of its lines as numbers, and that the words of LDBITS load the bits of the string
(spec/30_encoding.md R89, R90, spec/41_load.md R113). -/

namespace Sys2Proof.Machine

/-! ## The words of operands in range -/

/-- Concatenation puts the first vector's number above the second's bits. -/
theorem toNat_append_eq {m n : Nat} (x : BitVec m) (y : BitVec n) : (x ++ y).toNat = x.toNat * 2 ^ n + y.toNat := by
  rw [BitVec.toNat_append, ← Nat.shiftLeft_add_eq_or_of_lt y.isLt, Nat.shiftLeft_eq]

theorem encode_ldi_ofNat {v : Nat} (hv : v < 2 ^ 28) :
    encode (.ldi (BitVec.ofNat 28 v)) = BitVec.ofNat 32 (0x20000000 + v) := by
  apply BitVec.eq_of_toNat_eq
  simp only [encode, toNat_append_eq, BitVec.toNat_ofNat]
  omega

theorem encode_ldb_ofNat {nb d : Nat} (hnb : nb < 2 ^ 5) (hd : d < 2 ^ 16) :
    encode (.ldb (BitVec.ofNat 5 nb) (BitVec.ofNat 16 d)) = BitVec.ofNat 32 (0x30000000 + nb * 2 ^ 16 + d) := by
  apply BitVec.eq_of_toNat_eq
  simp only [encode, toNat_append_eq, BitVec.toNat_ofNat]
  omega

theorem asmLdi_eq (v : Nat) : asmLdi v = if v < 2 ^ 28 then some (BitVec.ofNat 32 (0x20000000 + v)) else none :=
  ite_congr rfl (fun hv => congrArg some (encode_ldi_ofNat hv)) fun _ => rfl

/-- Data of at most 16 bits fits the field BDATA (R83). -/
theorem lt_two_pow_16_of_lt {nb d : Nat} (hnb : nb ≤ 16) (hd : d < 2 ^ nb) : d < 2 ^ 16 :=
  hd.trans_le (Nat.pow_le_pow_right (by decide) hnb)

theorem asmLdb_eq (nb d : Nat) : asmLdb nb d =
    if 1 ≤ nb ∧ nb ≤ 16 ∧ d < 2 ^ nb then some (BitVec.ofNat 32 (0x30000000 + nb * 2 ^ 16 + d)) else none := by
  refine ite_congr rfl (fun h => congrArg some ?_) fun _ => rfl
  obtain ⟨-, hnb, hd⟩ := h
  exact encode_ldb_ofNat (by omega) (lt_two_pow_16_of_lt hnb hd)

theorem assemble_ldi (v : Nat) :
    assemble (.ldi v) = if v < 2 ^ 28 then some [BitVec.ofNat 32 (0x20000000 + v)] else none := by
  rw [assemble, asmLdi_eq]
  split <;> rfl

theorem assemble_ldb (nb d : Nat) : assemble (.ldb nb d) =
    if 1 ≤ nb ∧ nb ≤ 16 ∧ d < 2 ^ nb then some [BitVec.ofNat 32 (0x30000000 + nb * 2 ^ 16 + d)] else none := by
  rw [assemble, asmLdb_eq]
  split <;> rfl

/-- LDBYTE is LDB of 8 bits (R90). -/
theorem assemble_ldbyte (v : Nat) :
    assemble (.ldbyte v) = if v ≤ 255 then some [BitVec.ofNat 32 (0x30080000 + v)] else none := by
  have hrange : (1 ≤ 8 ∧ 8 ≤ 16 ∧ v < 2 ^ 8) = (v ≤ 255) := propext (by omega)
  exact (assemble_ldb 8 v).trans (ite_congr hrange (fun _ => rfl) fun _ => rfl)

theorem assemble_ldir (v k : Nat) : assemble (.ldir v k) =
    if 1 ≤ k ∧ v < 2 ^ 28 then some (List.replicate k (BitVec.ofNat 32 (0x20000000 + v))) else none := by
  rw [assemble, asmLdi_eq, ite_and]
  split
  · split <;> rfl
  · rfl

/-! ## A bit string as a numeral -/

theorem foldl_bits (bits : List Bit) (n : Nat) :
    bits.foldl (fun n b => 2 * n + b.toNat) n = 2 ^ bits.length * n + bitsNumeral bits := by
  induction bits generalizing n with
  | nil => simp [bitsNumeral]
  | cons b bits ih =>
    rw [bitsNumeral, List.foldl_cons, List.foldl_cons, ih, ih, List.length_cons]
    ring

theorem bitsNumeral_cons (b : Bit) (bits : List Bit) :
    bitsNumeral (b :: bits) = 2 ^ bits.length * b.toNat + bitsNumeral bits := by
  rw [bitsNumeral, List.foldl_cons, foldl_bits, Nat.mul_zero, Nat.zero_add]

theorem bitsNumeral_lt (bits : List Bit) : bitsNumeral bits < 2 ^ bits.length := by
  induction bits with
  | nil => simp [bitsNumeral]
  | cons b bits ih =>
    have hb : b.toNat ≤ 1 := Nat.le_of_lt_succ b.isLt
    have hmul : 2 ^ bits.length * b.toNat ≤ 2 ^ bits.length := mul_le_of_le_one_right (Nat.zero_le _) hb
    rw [bitsNumeral_cons, List.length_cons, Nat.pow_succ]
    omega

/-- The first bit is the most significant (R90). -/
theorem testBit_bitsNumeral (bits : List Bit) {j : Nat} (hj : j < bits.length) :
    (bitsNumeral bits).testBit (bits.length - 1 - j) = bits[j].getLsbD 0 := by
  induction bits generalizing j with
  | nil => simp at hj
  | cons b bits ih =>
    rw [bitsNumeral_cons, Nat.testBit_two_pow_mul_add _ (bitsNumeral_lt bits), List.length_cons]
    cases j with
    | zero => simp [BitVec.getLsbD]
    | succ j =>
      have hlt : j < bits.length := Nat.lt_of_succ_lt_succ hj
      have hindex : bits.length + 1 - 1 - (j + 1) = bits.length - 1 - j := by omega
      rw [hindex, if_pos (by omega), ih hlt]
      rfl

/-! ## The chunks of LDBITS -/

/-- A chunk that one LDB loads (R90). -/
structure IsChunk (c : List Bit) : Prop where
  pos : 1 ≤ c.length
  le : c.length ≤ 16

/-- The LDB that loads a chunk (R90). -/
def chunkLdb (c : List Bit) : Instr := .ldb (BitVec.ofNat 5 c.length) (BitVec.ofNat 16 (bitsNumeral c))

theorem flatten_chunks16 {fuel : Nat} {bits : List Bit} (h : bits.length ≤ fuel) :
    (chunks16 fuel bits).flatten = bits := by
  induction fuel generalizing bits with
  | zero => simpa [chunks16] using h
  | succ fuel ih =>
    cases bits with
    | nil => rfl
    | cons b bits =>
      rw [chunks16, List.flatten_cons, ih (by simp at h ⊢; omega), List.take_append_drop]

theorem isChunk_of_mem_chunks16 {fuel : Nat} {bits c : List Bit} (h : c ∈ chunks16 fuel bits) : IsChunk c := by
  induction fuel generalizing bits with
  | zero => simp [chunks16] at h
  | succ fuel ih =>
    cases bits with
    | nil => simp [chunks16] at h
    | cons b bits =>
      rw [chunks16, List.mem_cons] at h
      rcases h with rfl | h
      · exact ⟨by simp, by simp⟩
      · exact ih h

theorem mapM_eq_some_map {α β : Type} {f : α → Option β} {g : α → β} {l : List α} (h : ∀ a ∈ l, f a = some (g a)) :
    l.mapM f = some (l.map g) := by
  induction l with
  | nil => rfl
  | cons a l ih => simp [List.mapM_cons, h a (by simp), ih fun b hb => h b (by simp [hb])]

section
variable {c : List Bit} (h : IsChunk c)
include h

theorem IsChunk.toNat_length : (BitVec.ofNat 5 c.length).toNat = c.length := by
  have := h.le
  rw [BitVec.toNat_ofNat]; omega

theorem IsChunk.toNat_numeral : (BitVec.ofNat 16 (bitsNumeral c)).toNat = bitsNumeral c := by
  rw [BitVec.toNat_ofNat, Nat.mod_eq_of_lt (lt_two_pow_16_of_lt h.le (bitsNumeral_lt c))]

theorem IsChunk.wellFormed : (chunkLdb c).WellFormed := by
  rw [chunkLdb, wellFormed_ldb_iff, h.toNat_length, h.toNat_numeral]
  exact ⟨h.pos, h.le, bitsNumeral_lt c⟩

theorem IsChunk.asmLdb_eq : asmLdb c.length (bitsNumeral c) = some (encode (chunkLdb c)) :=
  if_pos ⟨h.pos, h.le, bitsNumeral_lt c⟩

/-- The bits that a chunk's LDB appends are the chunk. -/
theorem IsChunk.ldbBits_eq : ldbBits (BitVec.ofNat 5 c.length) (BitVec.ofNat 16 (bitsNumeral c)) = c := by
  apply List.ext_getElem
  · rw [length_ldbBits, h.toNat_length]
  · intro j _ hj
    rw [getElem_ldbBits, h.toNat_length]
    apply BitVec.eq_of_getLsbD_eq
    intro k hk
    obtain rfl : k = 0 := by omega
    rw [← testBit_bitsNumeral c hj, BitVec.getLsbD_extractLsb', BitVec.getLsbD, h.toNat_numeral]
    simp

end

theorem assemble_ldbits {bits : List Bit} (h : bits ≠ []) :
    assemble (.ldbits bits) = some ((chunks16 bits.length bits).map fun c => encode (chunkLdb c)) := by
  rw [assemble, if_neg h]
  exact mapM_eq_some_map fun c hc => (isChunk_of_mem_chunks16 hc).asmLdb_eq

/-! ## Loading the chunks -/

/-- Appending bits at BCNT appends them to the bitstream (R113). -/
theorem bitstream_appendBits (s : State) (bits : List Bit) : (s.appendBits bits).bitstream = s.bitstream ++ bits := by
  show (s.bbuf.writeList s.bcnt bits).slice 0 (s.bcnt + bits.length) = s.bbuf.slice 0 s.bcnt ++ bits
  rw [Buffer.slice_append, Buffer.slice_writeList_below _ _ _ (by omega), Nat.zero_add, Buffer.slice_writeList]

/-- From `s` to `t` commands completed without a fault and appended `bits` to the bitstream. -/
structure Loaded (bits : List Bit) (s t : State) : Prop where
  fcode : t.status.fcode = .ok
  params : t.params = s.params
  bcnt : t.bcnt = s.bcnt + bits.length
  bitstream : t.bitstream = s.bitstream ++ bits

theorem Loaded.trans {as bs : List Bit} {s t u : State} (h : Loaded as s t) (h' : Loaded bs t u) :
    Loaded (as ++ bs) s u where
  fcode := h'.fcode
  params := h'.params.trans h.params
  bcnt := by rw [h'.bcnt, h.bcnt, List.length_append, Nat.add_assoc]
  bitstream := by rw [h'.bitstream, h.bitstream, List.append_assoc]

/-- A well-formed command that is issued is executed (R37, R181). -/
theorem issue_encode (s : State) {i : Instr} (h : i.WellFormed) : s.issue (encode i) = exec i (s.accept (encode i)) :=
  engineTurn_instr rfl (decodeOfEncode i h)

theorem issue_chunk {c : List Bit} (h : IsChunk c) {s : State} (hroom : s.bcnt + c.length ≤ s.params.nBit) :
    ∃ t, s.issue (encode (chunkLdb c)) = .next t ∧ Loaded c s t := by
  rw [issue_encode s h.wellFormed, exec_eq_body]
  rcases ldbBody_cases (BitVec.ofNat 5 c.length) (BitVec.ofNat 16 (bitsNumeral c)) (s.accept (encode (chunkLdb c))) with
    ⟨hfull, -⟩ | ⟨-, e⟩
  · rw [h.toNat_length] at hfull
    exact absurd hroom (Nat.not_le.2 hfull)
  · refine ⟨_, congrArg (Host.Outcome.next ·.finish) e, ?_⟩
    rw [h.ldbBits_eq]
    exact ⟨rfl, rfl, rfl, bitstream_appendBits _ c⟩

theorem issueAll_cons {s t : State} {w : Word} (ws : List Word) (h : s.issue w = .next t) :
    s.issueAll (w :: ws) = t.issueAll ws := by
  simp only [State.issueAll, h]

/-- Chunks that fit, issued one after the other, are all appended. -/
theorem issueAll_chunks {cs : List (List Bit)} (hcs : ∀ c ∈ cs, IsChunk c) (hne : cs ≠ []) {s : State}
    (hroom : s.bcnt + cs.flatten.length ≤ s.params.nBit) :
    ∃ t, s.issueAll (cs.map fun c => encode (chunkLdb c)) = .next t ∧ Loaded cs.flatten s t := by
  induction cs generalizing s with
  | nil => exact absurd rfl hne
  | cons c cs ih =>
    rw [List.flatten_cons, List.length_append] at hroom
    obtain ⟨t, ht, hload⟩ := issue_chunk (hcs c (by simp)) (s := s) (by omega)
    rw [List.map_cons, issueAll_cons _ ht, List.flatten_cons]
    by_cases hnil : cs = []
    · subst hnil
      exact ⟨t, rfl, by simpa using hload⟩
    · obtain ⟨u, hu, hrest⟩ := ih (fun d hd => hcs d (by simp [hd])) hnil (s := t)
        (by rw [hload.bcnt, hload.params]; omega)
      exact ⟨u, hu, hload.trans hrest⟩

/-- The words of LDBITS load the bits of the string (R90, R113). -/
theorem ldbits_loads {bits : List Bit} {s : State} (hne : bits ≠ []) (hroom : s.bcnt + bits.length ≤ s.params.nBit) :
    ∃ ws t, assemble (.ldbits bits) = some ws ∧ s.issueAll ws = .next t ∧ Loaded bits s t := by
  have hflat : (chunks16 bits.length bits).flatten = bits := flatten_chunks16 le_rfl
  have hchunks : chunks16 bits.length bits ≠ [] := fun h => hne (by rw [← hflat, h]; rfl)
  obtain ⟨t, ht, hload⟩ := issueAll_chunks (fun _ => isChunk_of_mem_chunks16) hchunks (s := s) (by rwa [hflat])
  rw [hflat] at hload
  exact ⟨_, t, assemble_ldbits hne, ht, hload⟩

/-- Settles O38: each line by the word of its operands, and LDBITS by the chunks it is cut into. -/
theorem assemblerLoadsTheBits : Obligations.AssemblerLoadsTheBits := by
  unfold Obligations.AssemblerLoadsTheBits
  refine ⟨assemble_ldi, assemble_ldb, assemble_ldbyte, assemble_ldir, fun _ => rfl, rfl, fun bits s hne hroom => ?_⟩
  obtain ⟨ws, t, hws, ht, hload⟩ := ldbits_loads hne hroom
  exact ⟨ws, t, hws, ht, hload.fcode, hload.bcnt, hload.bitstream⟩

end Sys2Proof.Machine

/-! PROOFS. The control commands NOP and CLR, and what CLR leaves beside what reset leaves (spec/40_control.md R100 to R103). -/

namespace Sys2Proof.Machine

/-! ## Windows over an empty array -/

/-- A numeral whose bits are all 0. -/
theorem msbFirst_zero (n : Nat) : msbFirst (fun _ => 0#1) n = 0#n := by
  apply BitVec.eq_of_getLsbD_eq
  intro k _
  simp [getLsbD_msbFirst]

/-- With no bit in the bitstream, every word of BWIN reads 0 (R56). -/
theorem bwinWord_of_bcnt_eq_zero {s : State} (h : s.bcnt = 0) (k : Nat) : s.bwinWord k = 0#32 := by
  have hbit : ∀ j, s.visibleBit (32 * k + j) = 0#1 := fun j => if_neg (by omega)
  calc s.bwinWord k = msbFirst (fun _ => 0#1) 32 := msbFirst_congr fun j _ => hbit j
    _ = 0#32 := msbFirst_zero 32

/-- With no interval held, every word of IWIN reads 0 (R57). -/
theorem iwinWord_of_icnt_eq_zero {s : State} (h : s.icnt = 0) (k : Nat) : s.iwinWord k = 0#32 := if_neg (by omega)

section
variable (s : State)

/-! ## Completion -/

/-- A completion writes FCODE, BUSY and DONE (R182). -/
theorem onlyChanges_complete : OnlyChanges [.busy, .done, .fcode] s s.complete :=
  .of_hostWritable rfl (by simp [hostWritable, Field.Same])

/-! ## What CLR clears -/

/-- The pieces of State that CLR clears (R102). -/
def clearedByClr : List Field :=
  [.icnt, .bcnt, .base8, .offset, .fidx, .xsum, .sym, .record, .loc, .symv, .rvalid, .err, .ovr, .berr]

theorem onlyChanges_clearData : OnlyChanges clearedByClr s s.clearData := by
  intro f hf
  cases f with
  | ibuf | bbuf => exact fun _ => rfl
  | params | busy | done | fcode | ie | pend | rdata | schedule | draws => rfl
  | _ => simp [clearedByClr] at hf

/-- After CLR, STATUS is that of a reset but for DONE (R102, R103). -/
theorem status_clearData_complete : s.clearData.complete.status = { Status.reset with done := true } := rfl

/-! ## CLR beside reset -/

/-- CLR and reset differ in no element of the machine but IE and DONE, where R39 gives the element a reset value (R103). -/
theorem onlyChanges_resetStep_clr :
    OnlyChanges [.ibuf, .bbuf, .pend, .ie, .done, .rdata, .schedule, .draws] s.resetStep s.clearData.complete := by
  intro f hf
  cases f with
  | ibuf | bbuf | pend | ie | done | rdata | schedule | draws => simp at hf
  | _ => rfl

/-- The registers do not tell CLR from reset, STATUS and CTRL apart: both empty the arrays, so the windows hide their entries
(R103). -/
theorem readReg_clr_eq_resetStep {r : Reg} (hs : r ≠ .status) (hc : r ≠ .ctrl) :
    s.clearData.complete.readReg r = s.resetStep.readReg r := by
  cases r with
  | status => exact absurd rfl hs
  | ctrl => exact absurd rfl hc
  | bwin k => exact (bwinWord_of_bcnt_eq_zero rfl k).trans (bwinWord_of_bcnt_eq_zero rfl k).symm
  | iwin k => exact (iwinWord_of_icnt_eq_zero rfl k).trans (iwinWord_of_icnt_eq_zero rfl k).symm
  | _ => rfl

end

/-- Settles O33: element by element, and register by register. -/
theorem clrComparedWithReset : Obligations.ClrComparedWithReset := by
  unfold Obligations.ClrComparedWithReset
  intro s t h
  cases (exec_eq_body .clr s).symm.trans h
  exact ⟨onlyChanges_resetStep_clr s, fun _ hs hc => readReg_clr_eq_resetStep s hs hc, rfl, rfl, status_clearData_complete s,
    rfl, rfl⟩

/-- Settles O31: NOP is its completion. -/
theorem nopOnlyCompletes : Obligations.NopOnlyCompletes := by
  unfold Obligations.NopOnlyCompletes
  exact fun s => ⟨s.complete, exec_eq_body .nop s, completedOk_complete s, onlyChanges_complete s⟩

/-- Settles O32: CLR clears its elements and completes, and windows over empty arrays read 0. -/
theorem clrClearsDataState : Obligations.ClrClearsDataState := by
  unfold Obligations.ClrClearsDataState
  intro s
  have hstatus : s.clearData.complete.readReg .status = 0x00000002#32 := by
    rw [State.readReg, status_clearData_complete]
    decide
  have hwindows (k : Nat) : s.clearData.complete.readReg (.bwin k) = 0#32 ∧ s.clearData.complete.readReg (.iwin k) = 0#32 :=
    ⟨bwinWord_of_bcnt_eq_zero rfl k, iwinWord_of_icnt_eq_zero rfl k⟩
  exact ⟨_, exec_eq_body .clr s, completedOk_complete _, rfl, rfl, rfl, rfl, rfl, rfl,
    fun j _ => ⟨Symbols.at_replicate j, Symbols.at_replicate j⟩, hstatus, hwindows,
    (onlyChanges_clearData s).andThen (onlyChanges_complete _) (by simp [clearedByClr])⟩

end Sys2Proof.Machine

/-! PROOFS. The loads LDI and LDB, and EXT of a loaded symbol (spec/41_load.md R110, R113, R114). -/

namespace Sys2Proof.Machine

/-! ## How a command ends -/

section
variable {i : Instr} {s u : State}

/-- A command whose pseudocode goes on to its end completes (R182). -/
theorem exec_of_goesOn (h : bodyOf i s = .goesOn u) : exec i s = .next u.complete := by
  rw [exec_eq_body, h, Run.finish_goesOn]

/-- A command whose pseudocode raises a fault completes with it (R183). -/
theorem exec_of_raised {c : FCode} {n : Nat} (h : bodyOf i s = .raised u c n) : exec i s = .next (u.raise c n) := by
  rw [exec_eq_body, h, Run.finish_raised]

end

section
variable {s : State}

/-- LDI with room in IBUF (R110). -/
theorem exec_ldi_of_room (v : Interval) (h : s.icnt ≠ s.params.nInt) :
    exec (.ldi v) s = .next (s.appendInterval v).complete :=
  exec_of_goesOn ((ldiBody_cases v s).resolve_left fun ⟨hfull, _⟩ => h hfull).2

/-- LDI with IBUF full (R110). -/
theorem exec_ldi_of_full (v : Interval) (h : s.icnt = s.params.nInt) :
    exec (.ldi v) s = .next (s.raise .overflow s.icnt) :=
  exec_of_raised ((ldiBody_cases v s).resolve_right fun ⟨hroom, _⟩ => hroom h).2

/-- LDB with room in BBUF for all its bits (R113). -/
theorem exec_ldb_of_room {nb : BitVec 5} (d : BitVec 16) (h : s.bcnt + nb.toNat ≤ s.params.nBit) :
    exec (.ldb nb d) s = .next (s.appendBits (ldbBits nb d)).clearLocated.complete :=
  exec_of_goesOn ((ldbBody_cases nb d s).resolve_left fun ⟨hfull, _⟩ => Nat.not_le.2 hfull h).2

/-- LDB without room in BBUF for all its bits (R113). -/
theorem exec_ldb_of_full {nb : BitVec 5} (d : BitVec 16) (h : s.bcnt + nb.toNat > s.params.nBit) :
    exec (.ldb nb d) s = .next (s.raise .overflow s.bcnt) :=
  exec_of_raised ((ldbBody_cases nb d s).resolve_right fun ⟨hroom, _⟩ => Nat.not_le.2 h hroom).2

/-- EXT of a located window (R145). -/
theorem exec_ext_of_located (h : s.status.loc = true) :
    exec .ext s = .next (s.setSym (sliceWindow s.bbuf s.offset)).setSymv.complete :=
  exec_of_goesOn ((extBody_cases s).resolve_left fun ⟨hloc, _⟩ => Bool.false_ne_true (hloc.symm.trans h)).2

end

/-! ## What a load changes -/

section
variable (s : State)

/-- LDI's appending writes IBUF and ICNT (R110). -/
theorem onlyChanges_appendInterval (v : Interval) : OnlyChanges [.ibuf, .icnt] s (s.appendInterval v) := by
  intro f hf
  cases f with
  | ibuf | icnt => simp at hf
  | bbuf => exact fun _ => rfl
  | _ => rfl

/-- LDB's appending writes BBUF and BCNT (R113). -/
theorem onlyChanges_appendBits (bits : List Bit) : OnlyChanges [.bbuf, .bcnt] s (s.appendBits bits) := by
  intro f hf
  cases f with
  | bbuf | bcnt => simp at hf
  | ibuf => exact fun _ => rfl
  | _ => rfl

/-- A new bitstream is not located, sliced or validated (R32). -/
theorem onlyChanges_clearLocated : OnlyChanges [.loc, .symv, .rvalid] s s.clearLocated :=
  .of_hostWritable rfl (by simp [hostWritable, Field.Same])

end

/-! ## The bits LDB appends -/

section
variable (b : Buffer 1) (p : Nat)

/-- LDB's bits written from `p` on: BDATA[NB-1] first (R113). -/
theorem read_writeList_ldbBits {nb : BitVec 5} (d : BitVec 16) {j : Nat} (hj : j < nb.toNat) :
    (b.writeList p (ldbBits nb d)).read (p + j) = BitVec.ofBool (d.getLsbD (nb.toNat - 1 - j)) := by
  rw [Buffer.read_writeList_within _ _ (by rwa [length_ldbBits]), getElem_ldbBits]
  apply BitVec.eq_of_getLsbD_eq
  intro k hk
  obtain rfl : k = 0 := by omega
  simp

/-- LDB writes at its own positions only (R113). -/
theorem read_writeList_ldbBits_outside {nb : BitVec 5} (d : BitVec 16) {k : Nat} (hk : ¬(p ≤ k ∧ k < p + nb.toNat)) :
    (b.writeList p (ldbBits nb d)).read k = b.read k := by
  by_cases hbelow : k < p
  · exact Buffer.read_writeList_below _ _ hbelow
  · exact Buffer.read_writeList_above _ _ (by rw [length_ldbBits]; omega)

/-- The eight bits `LDB 8, v` writes are `v`, read as a symbol (R12, R114). -/
theorem sym8_writeList_ldbBits (v : Symbol) : sym8 (b.writeList p (ldbBits 8#5 (v.setWidth 16))) p = v := by
  apply BitVec.eq_of_getLsbD_eq
  intro k hk
  have hindex : (8#5 : BitVec 5).toNat - 1 - (7 - k) = k := by
    change 8 - 1 - (7 - k) = k
    omega
  have hwide : k < 16 := by omega
  rw [getLsbD_sym8 _ _ _ hk, read_writeList_ldbBits _ _ _ (show 7 - k < 8 by omega), hindex]
  simp [hwide]

end

/-- Settles O34: LDI with room is the appending and the completion. -/
theorem ldiAppends : Obligations.LdiAppends := by
  unfold Obligations.LdiAppends
  intro v s hroom
  exact ⟨_, exec_ldi_of_room v hroom, completedOk_complete _, rfl, Buffer.read_write_same _ _ _,
    fun k hk => Buffer.read_write_other _ _ hk, (onlyChanges_appendInterval s v).andThen (onlyChanges_complete _)⟩

/-- Settles O35: LDB with room is the appending of its bits, the clearing of the flags and the completion. -/
theorem ldbAppends : Obligations.LdbAppends := by
  unfold Obligations.LdbAppends
  intro nb d s _ hroom
  have hframe : OnlyChanges [.bbuf, .bcnt, .loc, .symv, .rvalid] s (s.appendBits (ldbBits nb d)).clearLocated :=
    (onlyChanges_appendBits s _).andThen (onlyChanges_clearLocated _)
  exact ⟨_, exec_ldb_of_room d hroom, completedOk_complete _, congrArg (s.bcnt + ·) (length_ldbBits nb d),
    fun _ hj => read_writeList_ldbBits _ _ d hj, fun _ hk => read_writeList_ldbBits_outside _ _ d hk, rfl, rfl, rfl,
    hframe.andThen (onlyChanges_complete _)⟩

/-- Settles O36: LDI and LDB without room are a raise at the count. -/
theorem loadsOverflow : Obligations.LoadsOverflow := by
  unfold Obligations.LoadsOverflow
  exact ⟨fun v _ hfull => ⟨_, exec_ldi_of_full v hfull, completedFault_raise _ _ _, onlyChanges_raise _ _ _⟩,
    fun _ d _ _ hfull => ⟨_, exec_ldb_of_full d hfull, completedFault_raise _ _ _, onlyChanges_raise _ _ _⟩⟩

/-- Settles O37: the bits LDB writes are the symbol, and EXT slices the symbol at that position. -/
theorem loadedSymbolReadsBack : Obligations.LoadedSymbolReadsBack := by
  unfold Obligations.LoadedSymbolReadsBack
  intro v s hroom
  have hsym := sym8_writeList_ldbBits s.bbuf s.bcnt v
  refine ⟨_, exec_ldb_of_room _ hroom, hsym, fun u j hbbuf hloc hj hpos => ⟨_, exec_ext_of_located hloc, ?_⟩⟩
  calc (sliceWindow u.bbuf u.offset).at j = sym8 u.bbuf (u.offset + 8 * j) := at_sliceWindow _ _ j hj
    _ = v := by rw [hbbuf, hpos]; exact hsym

end Sys2Proof.Machine

/-! PROOFS. DEC does not depend on the unit of the intervals (spec/41_load.md R112, spec/42_demodulator.md R120, R124). -/

namespace Sys2Proof.Machine

/-! ## The loop, scaled -/

/-- A loop's end with its baseline in another unit: the bits and the index of a failure stay (R112). -/
def Demod.scale (m : Nat) : Demod → Demod
  | .decoded bits b8 => .decoded bits (m * b8)
  | .failed i b8 => .failed i (m * b8)

theorem Demod.scale_emit (m : Nat) (b : Bit) (d : Demod) : (d.emit b).scale m = (d.scale m).emit b := by cases d <;> rfl

section
variable {m : Nat} (hm : 0 < m)
include hm

/-- The classification compares multiples of intervals, so it does not depend on their unit (R120, R124). -/
theorem classify_scale (c nx b8 : Nat) : classify (m * c) (m * nx) (m * b8) = classify c nx b8 := by
  have hlt (a b x y : Nat) : a * (m * x) < b * (m * y) ↔ a * x < b * y := by
    rw [Nat.mul_left_comm a, Nat.mul_left_comm b, Nat.mul_lt_mul_left hm]
  simp only [classify, gt_iff_lt, ← Nat.not_lt, hlt]

/-- Over scaled intervals from a scaled baseline, the loop takes the same steps. -/
theorem demodLoop_scale (x : Nat → Nat) (n fuel i b8 : Nat) :
    demodLoop (fun k => m * x k) n fuel i (m * b8) = (demodLoop x n fuel i b8).scale m := by
  induction fuel generalizing i b8 with
  | zero => rfl
  | succ fuel ih =>
    by_cases hi : i < n - 2
    · have hone : 8 * (m * x i + m * x (i + 1)) = m * (8 * (x i + x (i + 1))) := by ring
      have hzero : 8 * (m * x i) = m * (8 * x i) := Nat.mul_left_comm 8 m (x i)
      rw [demodLoop_succ, demodLoop_succ, if_pos hi, if_pos hi, classify_scale hm, hone, hzero, ih, ih]
      cases classify (x i) (x (i + 1)) b8 with
      | one | zero => exact (Demod.scale_emit _ _ _).symm
      | unclassified => rfl
    · rw [demodLoop_stop _ _ _ hi, demodLoop_stop _ _ _ hi]
      rfl

/-- The loop of DEC sees no other difference between scaled intervals than the unit (R112). -/
theorem demod_scale {s s' : State} (hn : 10 ≤ s.icnt) (hicnt : s'.icnt = s.icnt)
    (hscale : ∀ k, k < s.icnt → s'.interval k = m * s.interval k) : s'.demod = s.demod.scale m := by
  have hseed : seedBase8 s'.interval = m * seedBase8 s.interval := by
    have h (k : Nat) (hk : k < 10) : s'.interval k = m * s.interval k := hscale k (by omega)
    simp [seedBase8_eq, seedOf, Nat.mul_add, h]
  calc s'.demod = demodLoop s'.interval s.icnt s.icnt 10 (m * seedBase8 s.interval) := by rw [State.demod, hicnt, hseed]
    _ = demodLoop (fun k => m * s.interval k) s.icnt s.icnt 10 (m * seedBase8 s.interval) :=
      demodLoop_congr _ _ _ fun k _ hk => hscale k (by omega)
    _ = s.demod.scale m := demodLoop_scale hm _ _ _ _ _

end

/-! ## What DEC leaves of its loop's end -/

/-- An interval is a word of 28 bits (R22). -/
theorem interval_lt (s : State) (k : Nat) : s.interval k < 2 ^ 28 := (s.ibuf.read k).isLt

/-- The baseline DEC leaves fits in BASE8 (R26). -/
theorem demod_base8_lt (s : State) : s.demod.base8 < 2 ^ 32 := by
  have hseed : seedBase8 s.interval < 2 ^ 32 := by
    have h := interval_lt s
    rw [seedBase8_eq, seedOf]
    linarith only [h 1, h 2, h 3, h 4, h 5, h 6, h 7, h 8]
  exact demodLoop_base8_lt _ (interval_lt s) _ _ _ hseed

/-- The bits DEC writes are the bitstream (R127). -/
theorem bitstream_replaceBits (s : State) (out : List Bit) : (s.replaceBits out).bitstream = out :=
  Buffer.slice_writeList s.bbuf 0 out

/-- DEC of too few intervals (R122). -/
theorem exec_dec_of_short {s : State} (hn : s.icnt < 10) :
    exec .dec s = .next ((s.clearLocated.dropBits.setBase8 0).raise .shortInput s.icnt) := by
  rcases decBody_cases s with ⟨-, e⟩ | ⟨hge, -⟩ | ⟨hge, -⟩
  · exact exec_of_raised e
  · omega
  · omega

/-- A state that DEC can leave when its loop ends so: the bitstream and its baseline (R127), or the failure, its baseline and no
bitstream (R128). -/
def Demod.LeftIn (t : State) : Demod → Prop
  | .decoded bits b8 =>
    t.status.fcode = .ok ∧ t.bitstream = warmup ++ bits ∧ t.bcnt = (warmup ++ bits).length ∧ t.base8.toNat = b8
  | .failed i b8 => t.status.fcode = .decode ∧ t.fidx = i ∧ t.bitstream = [] ∧ t.bcnt = 0 ∧ t.base8.toNat = b8

/-- DEC leaves the end of its loop (R127, R128). -/
theorem demod_leftIn {s t : State} (hn : 10 ≤ s.icnt) (h : exec .dec s = .next t) : s.demod.LeftIn t := by
  have hfits := demod_base8_lt s
  rcases decBody_cases s with ⟨hlt, -⟩ | ⟨-, i, b8, hd, e⟩ | ⟨-, bits, b8, hd, e⟩
  · omega
  · rw [hd] at hfits ⊢
    cases (exec_of_raised (i := .dec) e).symm.trans h
    exact ⟨rfl, rfl, rfl, rfl, Nat.mod_eq_of_lt hfits⟩
  · rw [hd] at hfits ⊢
    cases (exec_of_goesOn (i := .dec) e).symm.trans h
    exact ⟨rfl, bitstream_replaceBits _ _, rfl, Nat.mod_eq_of_lt hfits⟩

/-- Settles O47: DEC leaves its loop's end, and scaling the intervals scales only the baseline there. -/
theorem decIsIndependentOfTheUnit : Obligations.DecIsIndependentOfTheUnit := by
  unfold Obligations.DecIsIndependentOfTheUnit
  intro s s' t t' m hm hicnt hscale ht ht'
  by_cases hn : s.icnt < 10
  · cases (exec_dec_of_short hn).symm.trans ht
    cases (exec_dec_of_short (hicnt ▸ hn)).symm.trans ht'
    exact ⟨rfl, rfl, rfl, fun _ => hicnt, rfl⟩
  · have hleft := demod_leftIn (by omega) ht
    have hleft' := demod_leftIn (by omega) ht'
    rw [demod_scale hm (by omega) hicnt hscale] at hleft'
    cases hd : s.demod with
    | failed i b8 =>
      rw [hd] at hleft hleft'
      obtain ⟨hfcode, hfidx, hbits, hbcnt, hbase8⟩ := hleft
      obtain ⟨hfcode', hfidx', hbits', hbcnt', hbase8'⟩ := hleft'
      exact ⟨by rw [hbits', hbits], by rw [hbcnt', hbcnt], by rw [hfcode', hfcode], fun _ => by rw [hfidx', hfidx],
        by rw [hbase8', hbase8]⟩
    | decoded bits b8 =>
      rw [hd] at hleft hleft'
      obtain ⟨hfcode, hbits, hbcnt, hbase8⟩ := hleft
      obtain ⟨hfcode', hbits', hbcnt', hbase8'⟩ := hleft'
      exact ⟨by rw [hbits', hbits], by rw [hbcnt', hbcnt], by rw [hfcode', hfcode], fun hfault => absurd hfcode hfault,
        by rw [hbase8', hbase8]⟩

end Sys2Proof.Machine

/-! PROOFS. The demodulator: how the steps of R124 end, and what DEC leaves (spec/42_demodulator.md R120 to R137). -/

namespace Sys2Proof.Machine

/-! ## One step -/

/-- Settles O46: at the ends of the bands, the comparisons of R120 decide the band. -/
theorem bandEdges : Obligations.BandEdges := by
  unfold Obligations.BandEdges
  intro b8 c nx
  exact ⟨fun _ => classify_of_isZero ⟨by omega, by omega⟩, fun _ => classify_of_isZero ⟨by omega, by omega⟩,
    fun _ => classify_of_neither (fun ⟨hshort, _⟩ => by omega) fun ⟨_, hhigh⟩ => by omega,
    fun _ _ => classify_of_neither (fun ⟨_, hnext⟩ => by omega) fun ⟨hlow, _⟩ => by omega⟩

/-! ## The steps of R124 end in one way

The loop of DEC is a function, and it does what the steps do, so no two ends of the steps differ. -/

section
variable {x : Nat → Nat} {n i b8 : Nat}

theorem demodulates_unique {bits bits' : List Bit} {c c' : Nat} (h : Demodulates x n i b8 bits c)
    (h' : Demodulates x n i b8 bits' c') : bits' = bits ∧ c' = c :=
  Demod.decoded.inj ((demodLoop_of_demodulates h' _ le_rfl).symm.trans (demodLoop_of_demodulates h _ le_rfl))

theorem failsAt_unique {j j' c c' : Nat} (h : FailsAt x n i b8 j c) (h' : FailsAt x n i b8 j' c') : j' = j ∧ c' = c :=
  Demod.failed.inj ((demodLoop_of_failsAt h' _ le_rfl).symm.trans (demodLoop_of_failsAt h _ le_rfl))

theorem not_failsAt_of_demodulates {bits : List Bit} {c j c' : Nat} (h : Demodulates x n i b8 bits c) :
    ¬ FailsAt x n i b8 j c' :=
  fun h' => nomatch (demodLoop_of_demodulates h _ le_rfl).symm.trans (demodLoop_of_failsAt h' _ le_rfl)

end

/-- Settles O42: the loop ends in one of two ways, and each end is the only one. -/
theorem demodulationEndsOneWay : Obligations.DemodulationEndsOneWay := by
  unfold Obligations.DemodulationEndsOneWay
  intro x n i b8
  rcases demodLoop_cases x n _ i b8 le_rfl with ⟨bits, c, -, h⟩ | ⟨j, c, -, h⟩
  · exact .inl ⟨⟨bits, c, h, fun _ _ => demodulates_unique h⟩, fun ⟨_, _, h'⟩ => not_failsAt_of_demodulates h h'⟩
  · exact .inr ⟨⟨j, c, h, fun _ _ => failsAt_unique h⟩, fun ⟨_, _, h'⟩ => not_failsAt_of_demodulates h' h⟩

/-! ## The loop of DEC -/

/-- DEC's loop starts behind the warm-up window, from the seed written out (R123, R125). -/
theorem demod_eq (s : State) : s.demod = demodLoop s.interval s.icnt s.icnt 10 (seedOf s.interval) := by
  rw [State.demod, seedBase8_eq]

section
variable {s s' : State} {bits : List Bit} {i b8 : Nat}

/-- The steps that reach the end are what DEC's loop does (R124, R125). -/
theorem demod_of_demodulates (h : Demodulates s.interval s.icnt 10 (seedOf s.interval) bits b8) :
    s.demod = .decoded bits b8 :=
  (demod_eq s).trans (demodLoop_of_demodulates h _ (by omega))

/-- The steps that reach an interval in neither band are what DEC's loop does (R124, R128). -/
theorem demod_of_failsAt (h : FailsAt s.interval s.icnt 10 (seedOf s.interval) i b8) : s.demod = .failed i b8 :=
  (demod_eq s).trans (demodLoop_of_failsAt h _ (by omega))

/-- DEC's loop reads no interval but IBUF[1..8] and IBUF[10..n-2] (R131). -/
theorem demod_congr (hn : 10 ≤ s.icnt) (hicnt : s'.icnt = s.icnt)
    (h : ∀ k, k < s.icnt → k ≠ 0 → k ≠ 9 → k ≠ s.icnt - 1 → s'.ibuf.read k = s.ibuf.read k) : s'.demod = s.demod := by
  have hread (k : Nat) (hlt : k < s.icnt) (h0 : k ≠ 0) (h9 : k ≠ 9) (hlast : k ≠ s.icnt - 1) :
      s'.interval k = s.interval k := congrArg BitVec.toNat (h k hlt h0 h9 hlast)
  have hseed : seedOf s'.interval = seedOf s.interval := by
    have hwarm (k : Nat) (h0 : k ≠ 0) (h9 : k < 9) : s'.interval k = s.interval k :=
      hread k (by omega) h0 (by omega) (by omega)
    simp [seedOf, hwarm]
  rw [demod_eq, demod_eq, hicnt, hseed]
  exact demodLoop_congr _ _ _ fun k hfrom hto => hread k (by omega) (by omega) (by omega) (by omega)

/-! ## DEC by its loop's end -/

/-- DEC whose loop reaches the end (R127). -/
theorem exec_dec_of_decoded (hn : 10 ≤ s.icnt) (hd : s.demod = .decoded bits b8) :
    exec .dec s = .next ((s.clearLocated.replaceBits (warmup ++ bits)).setBase8 b8).complete := by
  rcases decBody_cases s with ⟨hlt, -⟩ | ⟨-, i, c, hd', -⟩ | ⟨-, bits', c, hd', e⟩
  · omega
  · cases hd.symm.trans hd'
  · cases hd.symm.trans hd'
    exact exec_of_goesOn e

/-- DEC whose loop reaches an interval in neither band (R128). -/
theorem exec_dec_of_failed (hn : 10 ≤ s.icnt) (hd : s.demod = .failed i b8) :
    exec .dec s = .next ((s.clearLocated.dropBits.setBase8 b8).raise .decode i) := by
  rcases decBody_cases s with ⟨hlt, -⟩ | ⟨-, j, c, hd', e⟩ | ⟨-, bits', c, hd', -⟩
  · omega
  · cases hd.symm.trans hd'
    exact exec_of_raised e
  · cases hd.symm.trans hd'

end

/-! ## What DEC changes -/

section
variable (s : State)

theorem onlyChanges_setBase8 (b8 : Nat) : OnlyChanges [.base8] s (s.setBase8 b8) := by
  intro f hf
  cases f with
  | base8 => simp at hf
  | ibuf | bbuf => exact fun _ => rfl
  | _ => rfl

theorem onlyChanges_dropBits : OnlyChanges [.bcnt] s s.dropBits := by
  intro f hf
  cases f with
  | bcnt => simp at hf
  | ibuf | bbuf => exact fun _ => rfl
  | _ => rfl

theorem onlyChanges_replaceBits (out : List Bit) : OnlyChanges [.bbuf, .bcnt] s (s.replaceBits out) := by
  intro f hf
  cases f with
  | bbuf | bcnt => simp at hf
  | ibuf => exact fun _ => rfl
  | _ => rfl

/-- A DEC that faults keeps the contents of BBUF, and gives the bitstream up (R122, R128). -/
theorem onlyChanges_dec_raise (b8 : Nat) (c : FCode) (k : Nat) :
    OnlyChanges [.bcnt, .base8, .loc, .symv, .rvalid, .fidx, .fcode, .err, .busy, .done] s
      ((s.clearLocated.dropBits.setBase8 b8).raise c k) :=
  have hdrop : OnlyChanges [.loc, .symv, .rvalid, .bcnt] s s.clearLocated.dropBits :=
    (onlyChanges_clearLocated s).andThen (onlyChanges_dropBits _)
  have hbase : OnlyChanges [.loc, .symv, .rvalid, .bcnt, .base8] s (s.clearLocated.dropBits.setBase8 b8) :=
    hdrop.andThen (onlyChanges_setBase8 _ b8)
  hbase.andThen (onlyChanges_raise _ c k)

/-- A DEC that succeeds keeps FIDX and OFFSET (R127). -/
theorem onlyChanges_dec_complete (out : List Bit) (b8 : Nat) :
    OnlyChanges [.bbuf, .bcnt, .base8, .loc, .symv, .rvalid, .busy, .done, .fcode] s
      ((s.clearLocated.replaceBits out).setBase8 b8).complete :=
  have hbits : OnlyChanges [.loc, .symv, .rvalid, .bbuf, .bcnt] s (s.clearLocated.replaceBits out) :=
    (onlyChanges_clearLocated s).andThen (onlyChanges_replaceBits _ out)
  have hbase : OnlyChanges [.loc, .symv, .rvalid, .bbuf, .bcnt, .base8] s ((s.clearLocated.replaceBits out).setBase8 b8) :=
    hbits.andThen (onlyChanges_setBase8 _ b8)
  hbase.andThen (onlyChanges_complete _)

end

/-- Settles O39: DEC of too few intervals is a raise from a state without bitstream or baseline. -/
theorem decShortInput : Obligations.DecShortInput := by
  unfold Obligations.DecShortInput
  exact fun s hn => ⟨_, exec_dec_of_short hn, completedFault_raise _ _ _, rfl, rfl, rfl, rfl, rfl,
    onlyChanges_dec_raise s _ _ _⟩

/-- Settles O40: the steps are DEC's loop, and DEC leaves the loop's end. -/
theorem decDecodes : Obligations.DecDecodes := by
  unfold Obligations.DecDecodes
  intro s bits b8 hn h
  have hd := demod_of_demodulates h
  have hexec := exec_dec_of_decoded hn hd
  have hleft := demod_leftIn hn hexec
  rw [hd] at hleft
  obtain ⟨-, hbits, hbcnt, hbase8⟩ := hleft
  have hlength : (warmup ++ bits).length = 10 + bits.length := List.length_append
  exact ⟨_, hexec, completedOk_complete _, hbits, hbcnt.trans hlength, hbase8, rfl, rfl, rfl,
    fun k hk => Buffer.read_writeList_above _ s.bbuf (Nat.zero_add _ ▸ hk), onlyChanges_dec_complete s _ _⟩

/-- Settles O41: the steps are DEC's loop, and DEC leaves the loop's failure. -/
theorem decFaults : Obligations.DecFaults := by
  unfold Obligations.DecFaults
  intro s j b8 hn h
  have hd := demod_of_failsAt h
  have hexec := exec_dec_of_failed hn hd
  have hleft := demod_leftIn hn hexec
  rw [hd] at hleft
  obtain ⟨-, -, hbits, hbcnt, hbase8⟩ := hleft
  exact ⟨_, hexec, completedFault_raise _ _ _, hbcnt, hbits, hbase8, rfl, rfl, rfl, onlyChanges_dec_raise s _ _ _⟩

/-! ## The length of the output -/

/-- The loop's output on top of the warm-up fits n - 2 bits (R129, R130). -/
theorem length_bits_le_of_demod {s : State} {bits : List Bit} {b8 : Nat} (hd : s.demod = .decoded bits b8) :
    bits.length ≤ s.icnt - 12 := by
  have hlength := demodLoop_length _ _ _ ((demod_eq s).symm.trans hd)
  omega

/-- A successful DEC of n intervals leaves from 10 to max(10, n - 2) bits (R129). -/
theorem dec_bcnt_bounds {s t : State} (hn : 10 ≤ s.icnt) (h : exec .dec s = .next t) (hok : t.status.fcode = .ok) :
    10 ≤ t.bcnt ∧ t.bcnt ≤ max 10 (s.icnt - 2) := by
  have hleft := demod_leftIn hn h
  cases hd : s.demod with
  | failed i b8 =>
    rw [hd] at hleft
    obtain ⟨hfault, -⟩ := hleft
    cases hok.symm.trans hfault
  | decoded bits b8 =>
    rw [hd] at hleft
    obtain ⟨-, -, hbcnt, -⟩ := hleft
    have hlength := length_bits_le_of_demod hd
    rw [List.length_append, length_warmup] at hbcnt
    omega

/-- Settles O43: the bounds are the loop's, and the loop does not run for 10, 11 or 12 intervals. -/
theorem decOutputLength : Obligations.DecOutputLength := by
  unfold Obligations.DecOutputLength
  refine ⟨fun s t hn h hok => ?_, fun s hn hn12 => ?_⟩
  · obtain ⟨hge, hle⟩ := dec_bcnt_bounds hn h hok
    refine ⟨hge, hle, fun hlegal hfits => ?_⟩
    obtain ⟨h10, -, hdepths, -⟩ := of_decide_eq_true hlegal
    omega
  · have hd : s.demod = .decoded [] (seedOf s.interval) := (demod_eq s).trans (demodLoop_stop _ _ _ (by omega))
    exact ⟨_, exec_dec_of_decoded hn hd, rfl, rfl⟩

/-! ## What DEC depends on -/

/-- Settles O44: the loop's end is the same, and DEC goes by it alone. -/
theorem decIgnoresEdgeIntervals : Obligations.DecIgnoresEdgeIntervals := by
  unfold Obligations.DecIgnoresEdgeIntervals
  intro s t b hn hread h
  have hsame : State.demod { s with ibuf := b } = s.demod := demod_congr hn rfl hread
  cases hd : s.demod with
  | failed i b8 =>
    cases (exec_dec_of_failed hn hd).symm.trans h
    exact exec_dec_of_failed hn (hsame.trans hd)
  | decoded bits b8 =>
    cases (exec_dec_of_decoded hn hd).symm.trans h
    exact exec_dec_of_decoded hn (hsame.trans hd)

/-- A loop's end fixes what DEC leaves of it. -/
theorem Demod.LeftIn.outcome_eq {d : Demod} {t t' : State} (h : d.LeftIn t) (h' : d.LeftIn t') :
    t'.bcnt = t.bcnt ∧ t'.bitstream = t.bitstream ∧ t'.base8 = t.base8 ∧ t'.status.fcode = t.status.fcode ∧
      (t.status.fcode ≠ .ok → t'.fidx = t.fidx) := by
  cases d with
  | decoded bits b8 =>
    obtain ⟨hfcode, hbits, hbcnt, hbase8⟩ := h
    obtain ⟨hfcode', hbits', hbcnt', hbase8'⟩ := h'
    exact ⟨hbcnt'.trans hbcnt.symm, hbits'.trans hbits.symm, BitVec.eq_of_toNat_eq (hbase8'.trans hbase8.symm),
      hfcode'.trans hfcode.symm, fun hfault => absurd hfcode hfault⟩
  | failed i b8 =>
    obtain ⟨hfcode, hfidx, hbits, hbcnt, hbase8⟩ := h
    obtain ⟨hfcode', hfidx', hbits', hbcnt', hbase8'⟩ := h'
    exact ⟨hbcnt'.trans hbcnt.symm, hbits'.trans hbits.symm, BitVec.eq_of_toNat_eq (hbase8'.trans hbase8.symm),
      hfcode'.trans hfcode.symm, fun _ => hfidx'.trans hfidx.symm⟩

section
variable {s s' t t' : State}

/-- DEC's outcome is a function of its intervals (R135). -/
theorem dec_outcome_eq (hicnt : s'.icnt = s.icnt) (hread : ∀ k, k < s.icnt → s'.ibuf.read k = s.ibuf.read k)
    (h : exec .dec s = .next t) (h' : exec .dec s' = .next t') :
    t'.bcnt = t.bcnt ∧ t'.bitstream = t.bitstream ∧ t'.base8 = t.base8 ∧ t'.status.fcode = t.status.fcode ∧
      (t.status.fcode ≠ .ok → t'.fidx = t.fidx) := by
  by_cases hn : s.icnt < 10
  · cases (exec_dec_of_short hn).symm.trans h
    cases (exec_dec_of_short (hicnt ▸ hn)).symm.trans h'
    exact ⟨rfl, rfl, rfl, rfl, fun _ => hicnt⟩
  · have hsame : s'.demod = s.demod := demod_congr (by omega) hicnt fun k hk _ _ _ => hread k hk
    exact (demod_leftIn (by omega) h).outcome_eq (hsame ▸ demod_leftIn (by omega) h')

/-- DEC keeps its intervals, and FIDX unless it faults (R137). -/
theorem dec_keeps (h : exec .dec s = .next t) :
    t.icnt = s.icnt ∧ t.ibuf = s.ibuf ∧ (t.status.fcode = .ok → t.fidx = s.fidx) := by
  rcases decBody_cases s with ⟨-, e⟩ | ⟨-, i, b8, -, e⟩ | ⟨-, bits, b8, -, e⟩
  · cases (exec_of_raised (i := .dec) e).symm.trans h
    exact ⟨rfl, rfl, nofun⟩
  · cases (exec_of_raised (i := .dec) e).symm.trans h
    exact ⟨rfl, rfl, nofun⟩
  · cases (exec_of_goesOn (i := .dec) e).symm.trans h
    exact ⟨rfl, rfl, fun _ => rfl⟩

end

/-- Settles O45: DEC's outcome is its intervals', and a second DEC finds the same intervals. -/
theorem decIsDeterminedByItsIntervals : Obligations.DecIsDeterminedByItsIntervals := by
  unfold Obligations.DecIsDeterminedByItsIntervals
  refine ⟨fun s s' t t' hicnt hread h h' => dec_outcome_eq hicnt hread h h', fun s t u ht hu => ?_⟩
  obtain ⟨hicnt, hibuf, -⟩ := dec_keeps ht
  obtain ⟨-, -, hfidx⟩ := dec_keeps hu
  obtain ⟨hbcnt, hbits, hbase8, hfcode, hfault⟩ := dec_outcome_eq hicnt (fun _ _ => by rw [hibuf]) ht hu
  refine ⟨hicnt, hibuf, hbcnt, hbits, hbase8, hfcode, ?_⟩
  by_cases hok : t.status.fcode = .ok
  · exact hfidx (hfcode.trans hok)
  · exact hfault hok

/-! ## Biphase cells -/

section
variable {h : Nat}

theorem cellsOf_one (bits : List Bit) : cellsOf h (1#1 :: bits) = h :: h :: cellsOf h bits := rfl

theorem cellsOf_zero (bits : List Bit) : cellsOf h (0#1 :: bits) = 2 * h :: cellsOf h bits := rfl

/-- Two half-cells are a `1` at the baseline of their cell (R120). -/
theorem isOne_halfCells (hpos : 0 < h) : IsOne h h (16 * h) := ⟨by omega, by omega⟩

/-- A whole cell is a `0` at its own baseline (R120). -/
theorem isZero_cell : IsZero (2 * h) (16 * h) := ⟨by omega, by omega⟩

/-- The steps over cells of one length give the encoded bits back and keep the baseline (R132). -/
theorem demodulates_cellsOf {x : Nat → Nat} {n : Nat} (hpos : 0 < h) (bits : List Bit) (i : Nat)
    (hn : n = i + (cellsOf h bits).length + 2)
    (hx : ∀ k, k < (cellsOf h bits).length → some (x (i + k)) = (cellsOf h bits)[k]?) :
    Demodulates x n i (16 * h) bits (16 * h) := by
  induction bits generalizing i with
  | nil => exact .stop i _ (by rw [hn, cellsOf, List.length_nil]; omega)
  | cons b bits ih =>
    rcases b.eq_zero_or_eq_one with rfl | rfl
    · rw [cellsOf_zero] at hn hx
      simp only [List.length_cons] at hn hx
      have hfirst : x i = 2 * h := Option.some.inj (hx 0 (by omega))
      have hcell : 8 * x i = 16 * h := by omega
      refine .zero i _ bits _ (by omega) (by rw [hfirst]; exact isZero_cell) ?_
      rw [hcell]
      refine ih (i + 1) (by omega) fun k hk => ?_
      rw [Nat.add_right_comm]
      exact hx (k + 1) (by omega)
    · rw [cellsOf_one] at hn hx
      simp only [List.length_cons] at hn hx
      have hfirst : x i = h := Option.some.inj (hx 0 (by omega))
      have hsecond : x (i + 1) = h := Option.some.inj (hx 1 (by omega))
      have hcell : 8 * (x i + x (i + 1)) = 16 * h := by omega
      refine .one i _ bits _ (by omega) (by rw [hfirst, hsecond]; exact isOne_halfCells hpos) ?_
      rw [hcell]
      refine ih (i + 2) (by omega) fun k hk => ?_
      rw [Nat.add_right_comm]
      exact hx (k + 2) (by omega)

end

/-- Settles O48: the warm-up cells seed the baseline, and from there the steps give the encoded bits back. -/
theorem decDecodesBiphaseCells : Obligations.DecDecodesBiphaseCells := by
  unfold Obligations.DecDecodesBiphaseCells
  intro s h bits tail hpos htail hn hx
  have hwarm (k : Nat) (hk : k < 10) : s.interval k = 2 * h := by
    have hlist := hx k (by omega)
    rw [List.append_assoc, List.getElem?_append_left (by simpa using hk), List.getElem?_replicate, if_pos hk] at hlist
    exact Option.some.inj hlist
  have hseed : seedOf s.interval = 16 * h := by
    simp only [seedOf, hwarm, Nat.reduceLT]
    omega
  have hcells (k : Nat) (hk : k < (cellsOf h bits).length) : some (s.interval (10 + k)) = (cellsOf h bits)[k]? := by
    rw [hx (10 + k) (by omega), List.append_assoc, List.getElem?_append_right (by simp),
      List.getElem?_append_left (by simpa using hk)]
    simp
  have hsteps := demodulates_cellsOf hpos bits 10 hn hcells
  rw [← hseed] at hsteps
  obtain ⟨t, hexec, hok, hbits, -, hbase8, -⟩ := decDecodes s bits _ (by omega) hsteps
  exact ⟨t, hexec, hok, hbits, hbase8.trans hseed⟩

end Sys2Proof.Machine

/-! PROOFS. The locator and extractor, FND and EXT (spec/43_locator.md R140 to R147). -/

namespace Sys2Proof.Machine

/-! ## Where the sentinel stands -/

section
variable {b : Buffer 1} {n p q : Nat}

theorem NoSentinel.not_firstSentinelAt (h : NoSentinel b n) : ¬ FirstSentinelAt b n p :=
  fun hp => h p hp.inRange hp.here

theorem FirstSentinelAt.unique (hp : FirstSentinelAt b n p) (hq : FirstSentinelAt b n q) : p = q :=
  Option.some.inj ((firstSentinel_eq_some.2 hp).symm.trans (firstSentinel_eq_some.2 hq))

end

/-- Settles O50: the sentinel's zero is not among the ones, and the last seven ones before the zero are the sentinel. -/
theorem sentinelInARunOfOnes : Obligations.SentinelInARunOfOnes := by
  unfold Obligations.SentinelInARunOfOnes
  intro b a k hk hones hzero q haq hqk
  have hrun (j : Nat) (haj : a ≤ j) (hjk : j < a + k) : b.read j = 1#1 := by
    simpa only [Nat.add_sub_cancel' haj] using hones (j - a) (by omega)
  rw [sentinelAt_iff]
  constructor
  · intro h
    by_contra hne
    have hone : b.read (q + 7) = 1#1 := hrun (q + 7) (by omega) (by omega)
    exact absurd (hone.symm.trans h.zero) (by decide)
  · intro hq
    exact ⟨fun j hj => hrun (q + j) (by omega) (by omega), by rwa [show q + 7 = a + k by omega]⟩

/-! ## How FND and EXT end -/

section
variable {s : State} {p : Nat}

/-- FND without a sentinel (R144). -/
theorem exec_fnd_of_noSentinel (h : NoSentinel s.bbuf s.bcnt) :
    exec .fnd s = .next ((s.clearLocated.setOffset 0).raise .noSentinel s.bcnt) := by
  rcases fndBody_cases s with ⟨-, e⟩ | ⟨_, hp, -⟩ | ⟨_, hp, -⟩
  · exact exec_of_raised e
  · exact absurd hp h.not_firstSentinelAt
  · exact absurd hp h.not_firstSentinelAt

/-- FND with fewer than 200 bits from the sentinel on (R144). -/
theorem exec_fnd_of_short (h : FirstSentinelAt s.bbuf s.bcnt p) (hw : s.bcnt - p < 200) :
    exec .fnd s = .next ((s.clearLocated.setOffset p).raise .shortWindow (s.bcnt - p)) := by
  rcases fndBody_cases s with ⟨hno, -⟩ | ⟨q, hq, -, e⟩ | ⟨q, hq, hw', -⟩
  · exact absurd h hno.not_firstSentinelAt
  · exact h.unique hq ▸ exec_of_raised e
  · exact absurd (h.unique hq ▸ hw) (Nat.not_lt.2 hw')

/-- FND with the whole window from the sentinel on (R144). -/
theorem exec_fnd_of_found (h : FirstSentinelAt s.bbuf s.bcnt p) (hw : 200 ≤ s.bcnt - p) :
    exec .fnd s = .next (s.clearLocated.setOffset p).setLoc.complete := by
  rcases fndBody_cases s with ⟨hno, -⟩ | ⟨q, hq, hw', -⟩ | ⟨q, hq, -, e⟩
  · exact absurd h hno.not_firstSentinelAt
  · exact absurd (h.unique hq ▸ hw) (Nat.not_le.2 hw')
  · exact h.unique hq ▸ exec_of_goesOn e

/-- EXT without a located window (R145). -/
theorem exec_ext_of_not_located (h : s.status.loc = false) : exec .ext s = .next (s.raise .sequence 0) :=
  exec_of_raised ((extBody_cases s).resolve_right fun ⟨hloc, _⟩ => Bool.false_ne_true (h.symm.trans hloc)).2

end

/-! ## What FND and EXT change -/

section
variable (s : State)

theorem onlyChanges_setOffset (p : Nat) : OnlyChanges [.offset] s (s.setOffset p) := by
  intro f hf
  cases f with
  | offset => simp at hf
  | ibuf | bbuf => exact fun _ => rfl
  | _ => rfl

theorem onlyChanges_setSym (v : Symbols) : OnlyChanges [.sym] s (s.setSym v) := by
  intro f hf
  cases f with
  | sym => simp at hf
  | ibuf | bbuf => exact fun _ => rfl
  | _ => rfl

theorem onlyChanges_setLoc : OnlyChanges [.loc] s s.setLoc :=
  .of_hostWritable rfl (by simp [hostWritable, Field.Same])

theorem onlyChanges_setSymv : OnlyChanges [.symv, .rvalid] s s.setSymv :=
  .of_hostWritable rfl (by simp [hostWritable, Field.Same])

/-- FND moves OFFSET and gives up what was located before, on every path (R144). -/
theorem onlyChanges_clearLocated_setOffset (p : Nat) :
    OnlyChanges [.offset, .loc, .symv, .rvalid] s (s.clearLocated.setOffset p) :=
  (onlyChanges_clearLocated s).andThen (onlyChanges_setOffset _ p)

/-- An EXT that succeeds keeps BBUF, OFFSET and LOC (R145, R147). -/
theorem onlyChanges_ext_complete (v : Symbols) :
    OnlyChanges [.sym, .symv, .rvalid, .busy, .done, .fcode] s (s.setSym v).setSymv.complete :=
  have hslice : OnlyChanges [.sym, .symv, .rvalid] s (s.setSym v).setSymv :=
    (onlyChanges_setSym s v).andThen (onlyChanges_setSymv _)
  hslice.andThen (onlyChanges_complete _)

end

/-- Settles O49: each outcome is a completion after LOC, SYMV and RVALID are cleared and OFFSET is moved. -/
theorem fndOutcomes : Obligations.FndOutcomes := by
  unfold Obligations.FndOutcomes
  intro s
  have hframe := onlyChanges_clearLocated_setOffset s
  refine ⟨fun h => ?_, fun p h hw => ?_, fun p h hw => ?_⟩
  · exact ⟨_, exec_fnd_of_noSentinel h, completedFault_raise _ _ _, rfl, rfl, rfl, rfl,
      (hframe 0).andThen (onlyChanges_raise _ _ _)⟩
  · exact ⟨_, exec_fnd_of_short h hw, completedFault_raise _ _ _, rfl, rfl, rfl, rfl,
      (hframe p).andThen (onlyChanges_raise _ _ _)⟩
  · have hfound : OnlyChanges [.offset, .loc, .symv, .rvalid] s (s.clearLocated.setOffset p).setLoc :=
      (hframe p).andThen (onlyChanges_setLoc _)
    exact ⟨_, exec_fnd_of_found h hw, completedOk_complete _, rfl, rfl, rfl, rfl, hfound.andThen (onlyChanges_complete _)⟩

/-! ## The symbols of the window -/

/-- The bits of a window's symbols, bit 7 first (R145). -/
theorem getLsbD_at_sliceWindow (b : Buffer 1) (p : Nat) {j k : Nat} (hj : j < 25) (hk : k < 8) :
    ((sliceWindow b p).at j).getLsbD (7 - k) = (b.read (p + 8 * j + k)).getLsbD 0 := by
  rw [at_sliceWindow _ _ _ hj, getLsbD_sym8 _ _ _ (by omega), show 7 - (7 - k) = k by omega]

/-- Settles O51: a successful EXT leaves the window's slices in SYM, and an EXT out of sequence is a raise. -/
theorem extSlicesTheWindow : Obligations.ExtSlicesTheWindow := by
  unfold Obligations.ExtSlicesTheWindow
  refine fun s => ⟨fun hloc => ?_, fun hloc => ?_⟩
  · exact ⟨_, exec_ext_of_located hloc, completedOk_complete _, fun _ _ hj hk => getLsbD_at_sliceWindow _ _ hj hk, rfl, rfl,
      onlyChanges_ext_complete s _⟩
  · exact ⟨_, exec_ext_of_not_located hloc, completedFault_raise _ _ _, onlyChanges_raise _ _ _⟩

/-- Settles O52: LOC means that the sentinel is at OFFSET with 200 bits from there, and symbol 0 is read from it. -/
theorem extReadsInRange : Obligations.ExtReadsInRange := by
  unfold Obligations.ExtReadsInRange
  intro s h hloc
  obtain ⟨hfirst, hwindow⟩ := h.located hloc
  refine ⟨by omega, _, exec_ext_of_located hloc, ?_⟩
  calc (sliceWindow s.bbuf s.offset).at 0 = sym8 s.bbuf s.offset := at_sliceWindow _ _ 0 (by decide)
    _ = 0xFE#8 := sym8_of_sentinelBits hfirst.here

/-- Every record word reads 0 while RVALID = 0 (R58). -/
theorem readReg_recw_of_not_valid {s : State} (h : s.status.rvalid = false) (k : Nat) : s.readReg (.recw k) = 0#32 :=
  if_neg (ne_true_of_eq_false h)

/-- Settles O53: EXT keeps what it reads, LOC, OFFSET and BBUF, so a second EXT slices the same window. -/
theorem extIsRepeatable : Obligations.ExtIsRepeatable := by
  unfold Obligations.ExtIsRepeatable
  intro s t hloc h
  obtain rfl := Host.Outcome.next.inj ((exec_ext_of_located hloc).symm.trans h)
  -- As a variable, the window is not sliced anew when two states are compared.
  generalize hv : sliceWindow s.bbuf s.offset = v
  exact ⟨rfl, rfl, _, exec_ext_of_located hloc, hv, rfl, rfl, readReg_recw_of_not_valid rfl⟩

end Sys2Proof.Machine

/-! PROOFS. The checksum and symmetry validator, CHK and VAL (spec/44_validator.md R160 to R171). -/

namespace Sys2Proof.Machine

/-! ## How CHK ends -/

/-- The checks of R160 in their order: the first that fails, or none. -/
theorem checks_cases (v : Symbols) :
    v.at 0 ≠ rev8 (v.at 24) ∨ (v.at 0 = rev8 (v.at 24) ∧ ∃ i, firstMirrorFault v = some i) ∨
      (v.at 0 = rev8 (v.at 24) ∧ firstMirrorFault v = none ∧ checksum v ≠ v.at 13) ∨ ChecksPass v := by
  by_cases h0 : v.at 0 = rev8 (v.at 24)
  · cases hm : firstMirrorFault v with
    | some i => exact .inr (.inl ⟨h0, i, rfl⟩)
    | none =>
      by_cases hx : checksum v = v.at 13
      · exact .inr (.inr (.inr ⟨h0, (firstMirrorFault_eq_none v).1 hm, hx⟩))
      · exact .inr (.inr (.inl ⟨h0, rfl, hx⟩))
  · exact .inl h0

/-- CHK without symbols to check (R160). -/
theorem exec_chk_of_not_sliced {s : State} (hs : s.status.symv = false) : exec .chk s = .next (s.raise .sequence 0) :=
  exec_of_raised (if_pos hs)

section
variable {s : State} (hs : s.status.symv = true)
include hs

/-- CHK of symbols that fail the reversal check (R161). -/
theorem exec_chk_of_reversal (h0 : s.sym.at 0 ≠ rev8 (s.sym.at 24)) :
    exec .chk s = .next ((s.setRvalid false).raise .mirror0 0) :=
  exec_of_raised (by simp [bodyOf, chkBody, hs, reversalHolds, h0])

/-- CHK of symbols whose first mirror pair that differs is `i` (R162). -/
theorem exec_chk_of_mirror {i : Nat} (h0 : s.sym.at 0 = rev8 (s.sym.at 24)) (hm : firstMirrorFault s.sym = some i) :
    exec .chk s = .next ((s.setRvalid false).raise .mirror i) :=
  exec_of_raised (by simp [bodyOf, chkBody, hs, reversalHolds, h0, hm])

/-- CHK of symbols that fail no check but the last (R163). -/
theorem exec_chk_of_checksum (h0 : s.sym.at 0 = rev8 (s.sym.at 24)) (hm : firstMirrorFault s.sym = none)
    (hx : checksum s.sym ≠ s.sym.at 13) :
    exec .chk s = .next (((s.setRvalid false).setXsum (checksum s.sym)).raise .checksum 13) :=
  exec_of_raised (by simp [bodyOf, chkBody, chkSum, hs, reversalHolds, h0, hm, hx])

/-- CHK of symbols that pass every check (R164). -/
theorem exec_chk_of_pass (h : ChecksPass s.sym) : exec .chk s =
    .next ((((s.setRvalid false).setXsum (checksum s.sym)).setRecord (invertAll s.sym)).setRvalid true).complete :=
  have hm : firstMirrorFault s.sym = none := (firstMirrorFault_eq_none _).2 h.mirror
  exec_of_goesOn (by simp [bodyOf, chkBody, chkSum, hs, reversalHolds, h.reversal, hm, h.sum])

end

/-! ## What CHK changes -/

section
variable (s : State)

theorem onlyChanges_setRvalid (v : Bool) : OnlyChanges [.rvalid] s (s.setRvalid v) :=
  .of_hostWritable rfl (by simp [hostWritable, Field.Same])

theorem onlyChanges_setXsum (x : Symbol) : OnlyChanges [.xsum] s (s.setXsum x) := by
  intro f hf
  cases f with
  | xsum => simp at hf
  | ibuf | bbuf => exact fun _ => rfl
  | _ => rfl

theorem onlyChanges_setRecord (v : Symbols) : OnlyChanges [.record] s (s.setRecord v) := by
  intro f hf
  cases f with
  | record => simp at hf
  | ibuf | bbuf => exact fun _ => rfl
  | _ => rfl

/-- A CHK that fails before the checksum keeps XSUM and REC (R165). -/
theorem onlyChanges_chk_raise (c : FCode) (n : Nat) :
    OnlyChanges [.rvalid, .fidx, .fcode, .err, .busy, .done] s ((s.setRvalid false).raise c n) :=
  (onlyChanges_setRvalid s false).andThen (onlyChanges_raise _ c n)

/-- CHK writes XSUM before it compares the checksum (R163). -/
theorem onlyChanges_chk_sum (x : Symbol) : OnlyChanges [.rvalid, .xsum] s ((s.setRvalid false).setXsum x) :=
  (onlyChanges_setRvalid s false).andThen (onlyChanges_setXsum _ x)

/-- A CHK that fails at the checksum keeps REC (R163, R165). -/
theorem onlyChanges_chk_sum_raise (x : Symbol) (c : FCode) (n : Nat) :
    OnlyChanges [.xsum, .rvalid, .fidx, .fcode, .err, .busy, .done] s (((s.setRvalid false).setXsum x).raise c n) :=
  (onlyChanges_chk_sum s x).andThen (onlyChanges_raise _ c n)

/-- A CHK that succeeds keeps FIDX and ERR (R164). -/
theorem onlyChanges_chk_complete (x : Symbol) (v : Symbols) :
    OnlyChanges [.xsum, .record, .rvalid, .busy, .done, .fcode] s
      ((((s.setRvalid false).setXsum x).setRecord v).setRvalid true).complete :=
  have hrecord : OnlyChanges [.rvalid, .xsum, .record] s (((s.setRvalid false).setXsum x).setRecord v) :=
    (onlyChanges_chk_sum s x).andThen (onlyChanges_setRecord _ v)
  have hvalid : OnlyChanges [.rvalid, .xsum, .record] s ((((s.setRvalid false).setXsum x).setRecord v).setRvalid true) :=
    hrecord.andThen (onlyChanges_setRvalid _ true)
  hvalid.andThen (onlyChanges_complete _)

end

/-- Settles O54: each outcome is a completion, after RVALID is cleared and what the passed checks write is written. -/
theorem chkOutcomes : Obligations.ChkOutcomes := by
  unfold Obligations.ChkOutcomes
  refine fun s => ⟨fun hs => ?_, fun hs h0 => ?_, fun i hs h0 h1 h12 hi hbefore => ?_, fun hs h0 hpairs hx => ?_,
    fun hs hpass => ?_⟩
  · exact ⟨_, exec_chk_of_not_sliced hs, completedFault_raise _ _ _, onlyChanges_raise _ _ _⟩
  · exact ⟨_, exec_chk_of_reversal hs h0, completedFault_raise _ _ _, rfl, onlyChanges_chk_raise _ _ _⟩
  · have hm := (firstMirrorFault_eq_some _ _).2 ⟨⟨h1, h12⟩, hi, hbefore⟩
    exact ⟨_, exec_chk_of_mirror hs h0 hm, completedFault_raise _ _ _, rfl, onlyChanges_chk_raise _ _ _⟩
  · have hm := (firstMirrorFault_eq_none _).2 hpairs
    exact ⟨_, exec_chk_of_checksum hs h0 hm hx, completedFault_raise _ _ _, rfl, rfl, onlyChanges_chk_sum_raise _ _ _ _⟩
  · exact ⟨_, exec_chk_of_pass hs hpass, completedOk_complete _, rfl, at_invertAll s.sym, rfl,
      onlyChanges_chk_complete _ _ _⟩

/-- What CHK of the sliced symbols of `s` leaves, whichever check it ends at (R160, R165). -/
structure Checked (s t : State) : Prop where
  fcode : t.status.fcode ∈ [.mirror0, .mirror, .checksum, .ok]
  frame : OnlyChanges [.xsum, .record, .rvalid, .fidx, .fcode, .err, .busy, .done] s t
  record : t.status.rvalid = false → t.record = s.record
  xsum : t.status.fcode ∈ [.mirror0, .mirror] → t.xsum = s.xsum

theorem exec_chk_checked {s : State} (hs : s.status.symv = true) : ∃ t, exec .chk s = .next t ∧ Checked s t := by
  rcases checks_cases s.sym with h0 | ⟨h0, i, hm⟩ | ⟨h0, hm, hx⟩ | hpass
  · exact ⟨_, exec_chk_of_reversal hs h0, by simp, (onlyChanges_chk_raise _ _ _).mono (by simp), fun _ => rfl, fun _ => rfl⟩
  · exact ⟨_, exec_chk_of_mirror hs h0 hm, by simp, (onlyChanges_chk_raise _ _ _).mono (by simp), fun _ => rfl,
      fun _ => rfl⟩
  · exact ⟨_, exec_chk_of_checksum hs h0 hm hx, by simp, (onlyChanges_chk_sum_raise _ _ _ _).mono (by simp),
      fun _ => rfl, by simp⟩
  · exact ⟨_, exec_chk_of_pass hs hpass, by simp, (onlyChanges_chk_complete _ _ _).mono (by simp), nofun, by simp⟩

/-- CHK keeps the symbols it checks (R171). -/
theorem chk_keeps_symbols {s t : State} (hs : s.status.symv = true) (h : exec .chk s = .next t) :
    t.sym = s.sym ∧ t.status.symv = true := by
  obtain ⟨u, hu, hchecked⟩ := exec_chk_checked hs
  cases hu.symm.trans h
  have hsymv : t.status.symv = s.status.symv := hchecked.frame .symv (by simp)
  exact ⟨hchecked.frame .sym (by simp), hsymv.trans hs⟩

/-- Settles O55: CHK keeps SYM and SYMV, so a second CHK ends at the same check. -/
theorem chkIsRepeatable : Obligations.ChkIsRepeatable := by
  unfold Obligations.ChkIsRepeatable
  intro s t hs h
  obtain ⟨hsym, hsymv⟩ := chk_keeps_symbols hs h
  refine ⟨hsym, ?_⟩
  rcases checks_cases s.sym with h0 | ⟨h0, i, hm⟩ | ⟨h0, hm, hx⟩ | hpass
  · refine ⟨_, exec_chk_of_reversal hsymv (hsym ▸ h0), ?_⟩
    cases (exec_chk_of_reversal hs h0).symm.trans h
    simp
  · refine ⟨_, exec_chk_of_mirror hsymv (hsym ▸ h0) (hsym ▸ hm), ?_⟩
    cases (exec_chk_of_mirror hs h0 hm).symm.trans h
    simp
  · refine ⟨_, exec_chk_of_checksum hsymv (hsym ▸ h0) (hsym ▸ hm) (hsym ▸ hx), ?_⟩
    cases (exec_chk_of_checksum hs h0 hm hx).symm.trans h
    simp
  · refine ⟨_, exec_chk_of_pass hsymv (hsym ▸ hpass), ?_⟩
    cases (exec_chk_of_pass hs hpass).symm.trans h
    simp

/-! ## The checksum -/

/-- Settles O56: XOR lets two symbols be folded in either order. -/
theorem checksumInAnyOrder : Obligations.ChecksumInAnyOrder := by
  unfold Obligations.ChecksumInAnyOrder
  intro v order hperm
  have hswap (x : Symbol) (i j : Nat) : x ^^^ v.at i ^^^ v.at j = x ^^^ v.at j ^^^ v.at i := by
    rw [BitVec.xor_assoc, BitVec.xor_comm (v.at i), ← BitVec.xor_assoc]
  exact hperm.symm.foldl_eq' (fun i _ j _ x => hswap x i j) 0xFF#8

/-- The checksum reads symbols 1 to 10 (R163). -/
theorem checksum_congr {v w : Symbols} (h : ∀ i, 1 ≤ i → i ≤ 10 → w.at i = v.at i) : checksum w = checksum v := by
  simp [checksum_eq, h]

/-! ## VAL as FND, EXT and CHK -/

/-- What VAL runs CHK on: a window located at `p` and sliced to `v` (R166). -/
def State.takeWindow (s : State) (p : Nat) (v : Symbols) : State :=
  ((s.clearLocated.setOffset p).setLoc.setSym v).setSymv

@[simp] theorem State.takeWindow_sym (s : State) (p : Nat) (v : Symbols) : (s.takeWindow p v).sym = v := rfl
@[simp] theorem State.takeWindow_fidx (s : State) (p : Nat) (v : Symbols) : (s.takeWindow p v).fidx = s.fidx := rfl

/-- CHK writes every flag that the completion before it wrote (R182, R183). -/
theorem exec_chk_complete {s : State} (hs : s.status.symv = true) : exec .chk s.complete = exec .chk s := by
  rcases checks_cases s.sym with h0 | ⟨h0, i, hm⟩ | ⟨h0, hm, hx⟩ | hpass
  · exact (exec_chk_of_reversal (s := s.complete) hs h0).trans (exec_chk_of_reversal hs h0).symm
  · exact (exec_chk_of_mirror (s := s.complete) hs h0 hm).trans (exec_chk_of_mirror hs h0 hm).symm
  · exact (exec_chk_of_checksum (s := s.complete) hs h0 hm hx).trans (exec_chk_of_checksum hs h0 hm hx).symm
  · exact (exec_chk_of_pass (s := s.complete) hs hpass).trans (exec_chk_of_pass hs hpass).symm

section
variable {s : State} {p : Nat} {v : Symbols}

/-- VAL without a sentinel (R167). -/
theorem exec_val_of_noSentinel (h : NoSentinel s.bbuf s.bcnt) :
    exec .val s = .next ((s.clearLocated.setOffset 0).raise .noSentinel s.bcnt) := by
  rcases execVal_cases s with ⟨-, e⟩ | ⟨_, hp, -⟩ | ⟨_, hp, -⟩
  · exact e
  · exact absurd hp h.not_firstSentinelAt
  · exact absurd hp h.not_firstSentinelAt

/-- VAL with fewer than 200 bits from the sentinel on (R167). -/
theorem exec_val_of_short (h : FirstSentinelAt s.bbuf s.bcnt p) (hw : s.bcnt - p < 200) :
    exec .val s = .next ((s.clearLocated.setOffset p).raise .shortWindow (s.bcnt - p)) := by
  rcases execVal_cases s with ⟨hno, -⟩ | ⟨q, hq, -, e⟩ | ⟨q, hq, hw', -⟩
  · exact absurd h hno.not_firstSentinelAt
  · exact h.unique hq ▸ e
  · exact absurd (h.unique hq ▸ hw) (Nat.not_lt.2 hw')

/-- VAL with the whole window from the sentinel on is CHK of its symbols (R166). -/
theorem exec_val_of_found (h : FirstSentinelAt s.bbuf s.bcnt p) (hw : 200 ≤ s.bcnt - p)
    (hv : v = sliceWindow s.bbuf p) : exec .val s = exec .chk (s.takeWindow p v) := by
  subst hv
  rcases execVal_cases s with ⟨hno, -⟩ | ⟨q, hq, hw', -⟩ | ⟨q, hq, -, e⟩
  · exact absurd h hno.not_firstSentinelAt
  · exact absurd (h.unique hq ▸ hw) (Nat.not_le.2 hw')
  · exact h.unique hq ▸ e

/-- VAL is CHK in some state whose symbols are the located window (R166). -/
theorem exec_val_eq_exec_chk (h : FirstSentinelAt s.bbuf s.bcnt p) (hw : 200 ≤ s.bcnt - p) :
    ∃ u : State, u.status.symv = true ∧ u.sym = sliceWindow s.bbuf p ∧ u.offset = p ∧ exec .val s = exec .chk u :=
  ⟨_, rfl, State.takeWindow_sym _ _ _, rfl, exec_val_of_found h hw rfl⟩

end

/-- Settles O57: FND's fault ends VAL, and CHK does not see the completions of FND and EXT before it. -/
theorem valRunsTheThreeCommands : Obligations.ValRunsTheThreeCommands := by
  unfold Obligations.ValRunsTheThreeCommands
  intro s t ht
  rcases fndBody_cases s with ⟨h, -⟩ | ⟨p, h, hw, -⟩ | ⟨p, h, hw, -⟩
  · cases (exec_fnd_of_noSentinel h).symm.trans ht
    exact ⟨fun _ => exec_val_of_noSentinel h, nofun⟩
  · cases (exec_fnd_of_short h hw).symm.trans ht
    exact ⟨fun _ => exec_val_of_short h hw, nofun⟩
  · cases (exec_fnd_of_found h hw).symm.trans ht
    have hext : exec .ext (s.clearLocated.setOffset p).setLoc.complete =
        .next (s.takeWindow p (sliceWindow s.bbuf p)).complete := exec_ext_of_located rfl
    exact ⟨fun hfault => absurd rfl hfault,
      fun _ => ⟨_, hext, rfl, (exec_val_of_found h hw rfl).trans (exec_chk_complete rfl).symm⟩⟩

/-! ## What VAL leaves -/

theorem onlyChanges_takeWindow (s : State) (p : Nat) (v : Symbols) :
    OnlyChanges [.offset, .sym, .loc, .symv, .rvalid] s (s.takeWindow p v) :=
  have hloc : OnlyChanges [.offset, .loc, .symv, .rvalid] s (s.clearLocated.setOffset p).setLoc :=
    (onlyChanges_clearLocated_setOffset s p).andThen (onlyChanges_setLoc _)
  have hsym : OnlyChanges [.offset, .sym, .loc, .symv, .rvalid] s
      ((s.clearLocated.setOffset p).setLoc.setSym v) := hloc.andThen (onlyChanges_setSym _ _)
  hsym.andThen (onlyChanges_setSymv _)

/-- VAL ends with a fault of FND, or with CHK's outcome on a window (R166). -/
theorem exec_val_cases (s : State) :
    (∃ p c n, c ∈ [.noSentinel, .shortWindow] ∧ exec .val s = .next ((s.clearLocated.setOffset p).raise c n)) ∨
      ∃ p v t, exec .val s = .next t ∧ Checked (s.takeWindow p v) t := by
  rcases execVal_cases s with ⟨-, e⟩ | ⟨p, -, -, e⟩ | ⟨p, h, hw, -⟩
  · exact .inl ⟨0, .noSentinel, _, by simp, e⟩
  · exact .inl ⟨p, .shortWindow, _, by simp, e⟩
  · obtain ⟨t, ht, hchecked⟩ := exec_chk_checked (s := s.takeWindow p (sliceWindow s.bbuf p)) rfl
    exact .inr ⟨p, _, t, (exec_val_of_found h hw rfl).trans ht, hchecked⟩

/-- VAL never ends out of sequence (R166). -/
theorem val_fcode_ne_sequence {s t : State} (h : exec .val s = .next t) : t.status.fcode ≠ .sequence := by
  rcases exec_val_cases s with ⟨p, c, n, hc, e⟩ | ⟨_, _, u, e, hchecked⟩
  · cases e.symm.trans h
    rintro rfl
    simp at hc
  · cases e.symm.trans h
    intro hseq
    have hc := hchecked.fcode
    simp [hseq] at hc

/-- Settles O58: FND's faults end VAL, and on a located window VAL ends as CHK does on its symbols. -/
theorem valOutcomes : Obligations.ValOutcomes := by
  unfold Obligations.ValOutcomes
  intro s
  refine ⟨fun t => val_fcode_ne_sequence, fun h => ?_, fun p h hw => ?_, fun p v h hw hv => ?_⟩
  · exact ⟨_, exec_val_of_noSentinel h, completedFault_raise _ _ _, rfl, rfl, rfl, rfl⟩
  · exact ⟨_, exec_val_of_short h hw, completedFault_raise _ _ _, rfl, rfl, rfl, rfl⟩
  · have hval := exec_val_of_found h hw hv
    refine ⟨fun h0 => ?_, fun i h0 h1 h12 hi hbefore => ?_, fun h0 hpairs hx => ?_, fun hpass => ?_⟩
    · exact ⟨_, hval.trans (exec_chk_of_reversal (s := s.takeWindow p v) rfl h0), completedFault_raise _ _ _,
        ⟨rfl, rfl, rfl, hv⟩, rfl⟩
    · have hm := (firstMirrorFault_eq_some _ _).2 ⟨⟨h1, h12⟩, hi, hbefore⟩
      exact ⟨_, hval.trans (exec_chk_of_mirror (s := s.takeWindow p v) rfl h0 hm), completedFault_raise _ _ _,
        ⟨rfl, rfl, rfl, hv⟩, rfl⟩
    · have hm := (firstMirrorFault_eq_none _).2 hpairs
      exact ⟨_, hval.trans (exec_chk_of_checksum (s := s.takeWindow p v) rfl h0 hm hx), completedFault_raise _ _ _,
        ⟨rfl, rfl, rfl, hv⟩, rfl, by simp⟩
    · exact ⟨_, hval.trans (exec_chk_of_pass (s := s.takeWindow p v) rfl hpass), completedOk_complete _,
        ⟨rfl, rfl, rfl, hv⟩, rfl, by simp, by simp, at_invertAll v⟩

/-- Settles O59: a fault of FND keeps SYM, REC and XSUM, and on a window CHK says what is kept. -/
theorem valFrame : Obligations.ValFrame := by
  unfold Obligations.ValFrame
  intro s
  rcases exec_val_cases s with ⟨p, c, n, -, e⟩ | ⟨p, v, t, e, hchecked⟩
  · have hframe : OnlyChanges [.offset, .loc, .symv, .rvalid, .fidx, .fcode, .err, .busy, .done] s
        ((s.clearLocated.setOffset p).raise c n) :=
      (onlyChanges_clearLocated_setOffset s p).andThen (onlyChanges_raise _ c n)
    exact ⟨_, e, hframe.mono (by simp), fun _ => rfl, fun _ => rfl, fun _ => rfl⟩
  · have hfcode := hchecked.fcode
    refine ⟨t, e, (onlyChanges_takeWindow s p v).andThen hchecked.frame, hchecked.record, fun hc => hchecked.xsum ?_,
      fun hc => ?_⟩
    · grind
    · grind

/-! ## A flipped bit of the window -/

/-- The array with the bit at `k` flipped. -/
def Buffer.flip (b : Buffer 1) (k : Nat) : Buffer 1 := b.write k (b.read k ^^^ 1#1)

section
variable (b : Buffer 1) {k j : Nat}

theorem Buffer.read_flip_other (h : j ≠ k) : (b.flip k).read j = b.read j := Buffer.read_write_other b _ h

theorem Buffer.getLsbD_read_flip (k j : Nat) :
    ((b.flip k).read j).getLsbD 0 = ((b.read j).getLsbD 0 ^^ decide (j = k)) := by
  by_cases h : j = k
  · subst h
    simp [flip]
  · simp [read_flip_other b h, h]

end

/-- The sentinel at `q` is in the eight bits from there (R140). -/
theorem SentinelBits.congr {a b : Buffer 1} {q : Nat} (h : SentinelBits a q)
    (hread : ∀ k, q ≤ k → k < q + 8 → b.read k = a.read k) : SentinelBits b q where
  ones k hk := (hread _ (by omega) (by omega)).trans (h.ones k hk)
  zero := (hread _ (by omega) (by omega)).trans h.zero

/-- A flip behind the first sentinel leaves it the first (R168). -/
theorem FirstSentinelAt.flip {b : Buffer 1} {n p k : Nat} (h : FirstSentinelAt b n p) (hk : p + 8 ≤ k) :
    FirstSentinelAt (b.flip k) n p where
  inRange := h.inRange
  here := h.here.congr fun _ _ _ => Buffer.read_flip_other b (by omega)
  first q hq hs := h.first q hq (hs.congr fun _ _ _ => (Buffer.read_flip_other b (by omega)).symm)

/-- The bit of a symbol that window bit `r` of it is: bit `7 - r` (R12). -/
theorem getLsbD_symbolBit (r k : Nat) : (0x80#8 >>> r).getLsbD k = decide (r + k = 7) := by
  rw [BitVec.getLsbD_ushiftRight, show 0x80#8 = BitVec.twoPow 8 7 from rfl, BitVec.getLsbD_twoPow]
  simp [eq_comm]

/-- A flip of bit `r` of the symbol at `p` (R12). -/
theorem sym8_flip_same (b : Buffer 1) (p : Nat) {r : Nat} (hr : r < 8) :
    sym8 (b.flip (p + r)) p = sym8 b p ^^^ (0x80#8 >>> r) := by
  apply BitVec.eq_of_getLsbD_eq
  intro k hk
  have hbit : (p + (7 - k) = p + r) = (r + k = 7) := propext (by omega)
  rw [BitVec.getLsbD_xor, getLsbD_sym8 _ _ _ hk, getLsbD_sym8 _ _ _ hk, Buffer.getLsbD_read_flip, getLsbD_symbolBit]
  simp only [hbit]

/-- A flip outside the symbol at `p` (R12). -/
theorem sym8_flip_other (b : Buffer 1) {p k : Nat} (h : k < p ∨ p + 8 ≤ k) : sym8 (b.flip k) p = sym8 b p :=
  sym8_congr fun _ _ => Buffer.read_flip_other b (by omega)

/-- Two windows differ in symbol `k`, and in no other. -/
structure DifferOnlyAt (v w : Symbols) (k : Nat) : Prop where
  here : w.at k ≠ v.at k
  elsewhere : ∀ j, j < 25 → j ≠ k → w.at j = v.at j

section
variable {v w : Symbols} {k : Nat}

/-- A change in symbol 24 leaves symbol 0, and `rev8` confuses no two symbols (R161). -/
theorem DifferOnlyAt.reversal_fails (h : DifferOnlyAt v w 24) (hpass : ChecksPass v) : w.at 0 ≠ rev8 (w.at 24) := by
  rw [h.elsewhere 0 (by omega) (by omega), hpass.reversal]
  exact fun heq => h.here (rev8_inj.1 heq).symm

theorem DifferOnlyAt.reversal_holds (h : DifferOnlyAt v w k) (hpass : ChecksPass v) (h0 : 1 ≤ k) (h24 : k ≤ 23) :
    w.at 0 = rev8 (w.at 24) := by
  rw [h.elsewhere 0 (by omega) (by omega), h.elsewhere 24 (by omega) (by omega), hpass.reversal]

/-- A change in a symbol of pair `i` shows at that pair, and at no pair before it (R162). -/
theorem DifferOnlyAt.firstMirrorFault_eq {i : Nat} (h : DifferOnlyAt v w k) (hpass : ChecksPass v)
    (h1 : 1 ≤ i) (h11 : i ≤ 11) (hk : k = i ∨ k = 24 - i) : firstMirrorFault w = some i := by
  have hpair := hpass.mirror i h1 (by omega)
  refine (firstMirrorFault_eq_some w i).2 ⟨⟨h1, by omega⟩, fun heq => h.here ?_, fun j hj hji => ?_⟩
  · rcases hk with rfl | rfl
    · rw [heq, h.elsewhere _ (by omega) (by omega), hpair]
    · rw [← heq, h.elsewhere _ (by omega) (by omega), hpair]
  · rw [h.elsewhere j (by omega) (by omega), h.elsewhere (24 - j) (by omega) (by omega), hpass.mirror j hj (by omega)]

/-- Symbol 12 is its own mirror and not in the checksum, so no check sees a change there (R162, R163). -/
theorem DifferOnlyAt.checksPass (h : DifferOnlyAt v w 12) (hpass : ChecksPass v) : ChecksPass w where
  reversal := h.reversal_holds hpass (by omega) (by omega)
  mirror i h1 h12 := by
    by_cases hi : i = 12
    · rw [hi]
    · rw [h.elsewhere i (by omega) hi, h.elsewhere (24 - i) (by omega) (by omega), hpass.mirror i h1 h12]
  sum := by
    rw [checksum_congr fun i h1 h10 => h.elsewhere i (by omega) (by omega), h.elsewhere 13 (by omega) (by omega), hpass.sum]

end

section
variable (b : Buffer 1) (p : Nat) {m : Nat}

/-- Window bit `m` is bit `m % 8` of symbol `m / 8` (R145). -/
theorem at_sliceWindow_flip_same (hm : m ≤ 199) :
    (sliceWindow (b.flip (p + m)) p).at (m / 8) = sym8 b (p + 8 * (m / 8)) ^^^ (0x80#8 >>> (m % 8)) := by
  rw [at_sliceWindow _ _ _ (by omega), show p + m = p + 8 * (m / 8) + m % 8 by omega, sym8_flip_same _ _ (by omega)]

theorem at_sliceWindow_flip_other {j : Nat} (hj : j < 25) (hjm : j ≠ m / 8) :
    (sliceWindow (b.flip (p + m)) p).at j = sym8 b (p + 8 * j) := by
  rw [at_sliceWindow _ _ _ hj, sym8_flip_other _ (by omega)]

/-- The window with bit `m` flipped differs in the symbol that holds the bit. -/
theorem differOnlyAt_flip (hm : m ≤ 199) : DifferOnlyAt (sliceWindow b p) (sliceWindow (b.flip (p + m)) p) (m / 8) where
  here heq := by
    rw [at_sliceWindow_flip_same b p hm, at_sliceWindow _ _ _ (by omega)] at heq
    have hbit := congrArg (·.getLsbD (7 - m % 8)) heq
    simp [show m % 8 + (7 - m % 8) = 7 by omega] at hbit
  elsewhere j hj hjm := (at_sliceWindow_flip_other b p hj hjm).trans (at_sliceWindow b p j hj).symm

end

/-- Inverting keeps a flipped bit flipped (R12, R164). -/
theorem inv8_xor (x y : Symbol) : inv8 (x ^^^ y) = inv8 x ^^^ y := by
  rw [inv8, inv8, BitVec.xor_assoc, BitVec.xor_comm y, BitVec.xor_assoc]

/-- Settles O60: the flip leaves the sentinel and changes one symbol, and the checks find it there or, in symbol 12, not at all. -/
theorem singleBitFlips : Obligations.SingleBitFlips := by
  unfold Obligations.SingleBitFlips
  intro s p m hfirst hw hpass h8 h199
  have hflip : FirstSentinelAt (s.bbuf.flip (p + m)) s.bcnt p := hfirst.flip (by omega)
  obtain ⟨u, hsymv, hsym, hoffset, hval⟩ := exec_val_eq_exec_chk (s := { s with bbuf := s.bbuf.flip (p + m) }) hflip hw
  have hdiff : DifferOnlyAt (sliceWindow s.bbuf p) u.sym (m / 8) := by
    rw [hsym]
    exact differOnlyAt_flip s.bbuf p h199
  obtain ⟨t, ht, hchecked⟩ := exec_chk_checked hsymv
  have hkept : t.offset = u.offset := hchecked.frame .offset (by simp)
  have hmirror (i : Nat) (h1 : 1 ≤ i) (h11 : i ≤ 11) (hk : m / 8 = i ∨ m / 8 = 24 - i) :
      CompletedFault t .mirror i ∧ t.status.rvalid = false := by
    have h0 := hdiff.reversal_holds hpass (by omega) (by omega)
    cases (exec_chk_of_mirror hsymv h0 (hdiff.firstMirrorFault_eq hpass h1 h11 hk)).symm.trans ht
    exact ⟨completedFault_raise _ _ _, rfl⟩
  refine ⟨t, hval.trans ht, hkept.trans hoffset, fun h1 h11 => hmirror _ h1 h11 (.inl rfl),
    fun h13 => hmirror 11 (by omega) (by omega) (by omega), fun h14 h23 => hmirror _ (by omega) (by omega) (by omega),
    fun h24 => ?_, fun h12 => ?_⟩
  · rw [h24] at hdiff
    cases (exec_chk_of_reversal hsymv (hdiff.reversal_fails hpass)).symm.trans ht
    exact ⟨completedFault_raise _ _ _, rfl⟩
  · have hflipped := at_sliceWindow_flip_same s.bbuf p h199
    rw [h12] at hdiff hflipped
    cases (exec_chk_of_pass hsymv (hdiff.checksPass hpass)).symm.trans ht
    refine ⟨completedOk_complete _, rfl, ?_, fun j hj hj12 => ?_⟩
    · calc (invertAll u.sym).at 12 = inv8 (u.sym.at 12) := at_invertAll _ _ (by omega)
        _ = inv8 (sym8 s.bbuf (p + 96) ^^^ (0x80#8 >>> (m % 8))) := by rw [hsym, hflipped]
        _ = inv8 (sym8 s.bbuf (p + 96)) ^^^ (0x80#8 >>> (m % 8)) := inv8_xor _ _
    · calc (invertAll u.sym).at j = inv8 (u.sym.at j) := at_invertAll _ _ hj
        _ = inv8 (sym8 s.bbuf (p + 8 * j)) := by rw [hdiff.elsewhere j hj hj12, at_sliceWindow _ _ _ hj]

end Sys2Proof.Machine

/-! PROOFS. That every command completes, and that the engine does not see what the host has read (spec/60_exceptions.md R181
to R183). -/

namespace Sys2Proof.Machine

/-! ## Every command completes -/

/-- Settles O27: a command stays within its frame and then completes or raises a fault; CLR has no fault to raise. -/
theorem everyCommandCompletes : Obligations.EveryCommandCompletes := by
  unfold Obligations.EveryCommandCompletes
  intro i s
  have hclr : i = .clr → (bodyOf i s).finish.status.fcode = .ok := by
    rintro rfl
    rfl
  have ht := exec_eq_body i s
  obtain ⟨u, hu, e | ⟨c, n, hc, e⟩⟩ := exec_cases ht <;> rw [e] at ht hclr
  · exact ⟨u.complete, ht, rfl, rfl, hclr, fun hi => .inl ⟨rfl, hu.err hi, hu.fidx hi⟩⟩
  · exact ⟨u.raise c n, ht, rfl, rfl, hclr, fun _ => .inr ⟨hc, rfl⟩⟩

/-! ## The engine does not see the read port -/

/-- The state with another word on the port's `rdata` and another count of free values drawn. -/
def State.setPort (w : Word) (d : Nat) (s : State) : State := { s with rdata := w, draws := d }

/-- The same change of the port, where a command's pseudocode stands. -/
def Run.setPort (w : Word) (d : Nat) : Run → Run
  | .goesOn s => .goesOn (s.setPort w d)
  | .raised s c n => .raised (s.setPort w d) c n

/-- A part of a command's pseudocode neither reads nor writes the port: from a state that differs in the port only, it takes
the same branches and ends in a state that differs in the same way (R181). -/
def IgnoresPort (part : State → Run) : Prop := ∀ w d s, part (s.setPort w d) = (part s).setPort w d

theorem IgnoresPort.andThen {part next : State → Run} (h : IgnoresPort part) (hnext : IgnoresPort next) :
    IgnoresPort fun s => (part s).andThen next := by
  intro w d s
  simp only [h w d s]
  cases part s with
  | goesOn t => exact hnext w d t
  | raised t c n => rfl

theorem Run.finish_setPort (w : Word) (d : Nat) (r : Run) : (r.setPort w d).finish = r.finish.setPort w d := by
  cases r <;> rfl

/-- A choice between two runs by a condition that the port does not enter. -/
theorem Run.setPort_ite (w : Word) (d : Nat) (p : Prop) [Decidable p] (r r' : Run) :
    (if p then r.setPort w d else r'.setPort w d) = (if p then r else r').setPort w d := (apply_ite _ _ _ _).symm

theorem ldiBody_ignoresPort (v : Interval) : IgnoresPort (ldiBody v) := by
  intro w d s
  unfold ldiBody
  rw [← Run.setPort_ite]
  rfl

theorem ldbBody_ignoresPort (nb : BitVec 5) (data : BitVec 16) : IgnoresPort (ldbBody nb data) := by
  intro w d s
  unfold ldbBody
  rw [← Run.setPort_ite]
  rfl

theorem extBody_ignoresPort : IgnoresPort extBody := by
  intro w d s
  unfold extBody
  rw [← Run.setPort_ite]
  rfl

theorem chkSum_ignoresPort : IgnoresPort chkSum := by
  intro w d s
  unfold chkSum
  rw [← Run.setPort_ite]
  rfl

theorem decBody_ignoresPort : IgnoresPort decBody := by
  intro w d s
  have hdemod : (s.setPort w d).demod = s.demod := rfl
  unfold decBody
  rw [← Run.setPort_ite, hdemod]
  cases s.demod <;> rfl

theorem fndBody_ignoresPort : IgnoresPort fndBody := by
  intro w d s
  have hfirst : firstSentinel (s.setPort w d).bbuf (s.setPort w d).bcnt = firstSentinel s.bbuf s.bcnt := rfl
  unfold fndBody
  rw [hfirst]
  cases firstSentinel s.bbuf s.bcnt with
  | none => rfl
  | some p =>
    simp only [← Run.setPort_ite]
    rfl

theorem chkBody_ignoresPort : IgnoresPort chkBody := by
  intro w d s
  have hmirror : firstMirrorFault (s.setPort w d).sym = firstMirrorFault s.sym := rfl
  unfold chkBody
  rw [← Run.setPort_ite, ← Run.setPort_ite, hmirror]
  cases firstMirrorFault s.sym with
  | none => rw [← chkSum_ignoresPort]; rfl
  | some i => rfl

/-- No command reads or writes the port; VAL does not because FND, EXT and CHK do not (R166, R181). -/
theorem bodyOf_ignoresPort (i : Instr) : IgnoresPort (bodyOf i) := by
  cases i with
  | nop | clr => exact fun _ _ _ => rfl
  | ldi v => exact ldiBody_ignoresPort v
  | ldb nb data => exact ldbBody_ignoresPort nb data
  | dec => exact decBody_ignoresPort
  | fnd => exact fndBody_ignoresPort
  | ext => exact extBody_ignoresPort
  | chk => exact chkBody_ignoresPort
  | val => exact (fndBody_ignoresPort.andThen extBody_ignoresPort).andThen chkBody_ignoresPort

theorem exec_setPort (w : Word) (d : Nat) {i : Instr} {s t : State} (h : exec i s = .next t) :
    exec i (s.setPort w d) = .next (t.setPort w d) := by
  cases (exec_eq_body i s).symm.trans h
  rw [exec_eq_body, bodyOf_ignoresPort, Run.finish_setPort]

theorem engineTurn_setPort (w : Word) (d : Nat) {s t : State} (h : s.engineTurn = .next t) :
    (s.setPort w d).engineTurn = .next (t.setPort w d) := by
  cases hb : s.status.busy with
  | false =>
    cases (engineTurn_idle hb).symm.trans h
    exact engineTurn_idle hb
  | true =>
    rcases engineTurn_busy hb with ⟨i, hd, e⟩ | ⟨why, hd, e⟩
    · exact (engineTurn_instr (s := s.setPort w d) hb hd).trans (exec_setPort w d (e.symm.trans h))
    · cases e.symm.trans h
      exact engineTurn_illegal (s := s.setPort w d) hb hd

/-- Settles O29: a pending command, an illegal word and an idle engine each leave the port out of account. -/
theorem engineIgnoresHostReads : Obligations.EngineIgnoresHostReads := by
  unfold Obligations.EngineIgnoresHostReads
  exact fun _ _ w d h => engineTurn_setPort w d h

end Sys2Proof.Machine

/-! PROOFS. A reset at any point leaves the reset state (spec/10_state.md R39, R200, R201). -/

namespace Sys2Proof.Machine

/-! ## What the port leaves as it is -/

section
variable (w : Word) (d : Nat) (s : State)

theorem onlyChanges_setPort : OnlyChanges [.rdata, .draws] s (s.setPort w d) :=
  .of_hostWritable rfl (by simp [hostWritable, Field.Same, State.setPort])

/-- No register shows the port. -/
theorem readReg_setPort (r : Reg) : (s.setPort w d).readReg r = s.readReg r := by
  cases r <;> rfl

end

/-! ## Reset at any point -/

/-- What a reset leaves depends on the state before it, and on an access at the same edge, in the parameters, the schedule and
the port only (R200, R201). -/
theorem resetWith_eq_resetOf (s : State) (a : Option Access) :
    ∃ w d, s.resetWith a = State.setPort w d { State.resetOf s.params with schedule := s.schedule } := by
  rcases resetWith_cases s a with e | ⟨-, e⟩
  · exact ⟨s.rdata, s.draws, e⟩
  · exact ⟨Config.freeWord s.draws, s.draws + 1, e⟩

/-- A read at the edge of a reset returns the next free value (R201). -/
theorem resetWith_read_rdata (s : State) (x : Addr) (n : Nat) :
    (s.resetWith (some (.read x n))).rdata = Config.freeWord s.draws := rfl

/-- Settles O7: the turn leaves the reset state but for the schedule and the port, which no register shows. -/
theorem resetFromAnyState : Obligations.ResetFromAnyState := by
  unfold Obligations.ResetFromAnyState
  intro s a rest h
  have hread (x : Addr) (n : Nat) (ha : a = some (.read x n)) :
      (State.resetWith { s with schedule := rest } a).rdata = Config.freeWord s.draws := by
    rw [ha, resetWith_read_rdata]
  obtain ⟨w, d, e⟩ := resetWith_eq_resetOf { s with schedule := rest } a
  rw [e] at hread
  exact ⟨_, (step_takeTurn h).trans (congrArg Host.Outcome.next e), rfl, rfl, rfl, irq_of_not_done rfl,
    fun r => (readReg_setPort w d _ r).trans (readReg_schedule _ rest r),
    (onlyChanges_schedule _ rest).andThen (onlyChanges_setPort w d _), hread⟩

end Sys2Proof.Machine
